-- ==== Sys2Proof/Word.lean ====
section
/-! DEFINITION. The plain value types of the sourcerouting pipeline core: bytes, addresses, ports. -/

namespace Sys2Proof

/-- One byte of a frame buffer (20_memory.md R80). -/
abbrev Byte := BitVec 8

/-- A 48-bit Ethernet hardware address (10_state.md R36). -/
abbrev Mac := BitVec 48

/-- A 32-bit IPv4 address (10_state.md R39). -/
abbrev Ip := BitVec 32

/-- A port identifier, `PORT_W` = 16 bits wide (00_scope.md R10). -/
abbrev Port := BitVec 16

/-- A type tag or other 16-bit header field (10_state.md R36). -/
abbrev Half := BitVec 16

end Sys2Proof
end

