-- ==== Sys2Proof/Config.lean ====
section
/-! DEFINITION. What an implementation of the block fixes: the constants of 00_scope.md R10, the OPEN parameters as data,
and the one free value of the model (which published snapshot a frame reads, 20_memory.md R90). -/

namespace Sys2Proof

/-- `SR_CAPACITY`: entries the source-route stack holds (00_scope.md R10, R11). -/
def Config.srCapacity : Nat := 10

/-- `FT_CAPACITY`: entry registers of the forwarding table, the default entry not counted (00_scope.md R10, R12). -/
def Config.ftCapacity : Nat := 1024

/-- `LAS_CAPACITY`: entry registers of LocalAddressSet (00_scope.md R10). -/
def Config.lasCapacity : Nat := 3

/-- `ETHERTYPE_IPV4` (30_encoding.md R118). -/
def Config.etherIpv4 : Half := 0x0800#16

/-- `ETHERTYPE_ARP` (30_encoding.md R118). -/
def Config.etherArp : Half := 0x0806#16

/-- The default of the OPEN parameter `ETHERTYPE_SRCROUTE` (30_encoding.md R118). -/
def Config.etherSrDefault : Half := 0x1234#16

/-- `NO_PORT`, the "no specific port" sentinel (00_scope.md R10). -/
def Config.noPort : Port := 0xFFFF#16

/-- `ARP_OPER_REQUEST` (30_encoding.md R119). -/
def Config.operRequest : Half := 1#16

/-- `ARP_OPER_REPLY` (30_encoding.md R119). -/
def Config.operReply : Half := 2#16

/-- FREE VALUE (20_memory.md R90, 93_implementation_defined.md I8): which of the snapshots current between a frame's
ingress and its configuration read that frame sees. The argument is the frame's own draw number; nothing is known of the
result. Log entry 3. -/
opaque Config.snapshotDraw : Nat → Nat

/-- The OPEN parameters fixed when the block is built (00_scope.md R10, 10_state.md R51). They are held in the state as
data that no operation changes, so a statement about every state is a statement about every value of them. -/
structure Params where
  /-- `ETHERTYPE_SRCROUTE`. -/
  srType : Half
  /-- `TTL_ZERO_DROP`. -/
  ttlZeroDrop : Bool
  /-- `MAX_FRAME_LEN`; `none` is the value "unbounded" that R10 allows. -/
  maxFrameLen : Option Nat
  deriving DecidableEq, Repr

/-- The defaults of 92_eei_decisions.md's table of open parameters. -/
def Params.default : Params :=
  { srType := Config.etherSrDefault, ttlZeroDrop := true, maxFrameLen := none }

/-- The three EtherType constants are pairwise distinct (30_encoding.md R118). -/
abbrev Params.distinct (p : Params) : Prop :=
  p.srType ≠ Config.etherIpv4 ∧ p.srType ≠ Config.etherArp ∧ Config.etherIpv4 ≠ Config.etherArp

end Sys2Proof
end

