-- ==== Sys2Proof/Syntax.lean ====
section
/-! DEFINITION. The operations of the block, one constructor per row of spec/opcode_table.json (30_encoding.md R123), and the
results of the two select keys that choose among several operations (30_encoding.md R120, R121). -/

namespace Sys2Proof

/-- The block's operations. Operands are those a rule passes explicitly; everything else an operation uses is state. -/
inductive Instr where
  /-- P_START (41_parser.md R201) -/
  | pStart
  /-- P_START_SEL_ARP (R207) -/
  | pStartSelArp
  /-- P_START_SEL_SR (R208) -/
  | pStartSelSr
  /-- P_START_SEL_IPV4 (R209) -/
  | pStartSelIpv4
  /-- P_START_SEL_OTHER (R210) -/
  | pStartSelOther
  /-- P_ARP (R202) -/
  | pArp
  /-- P_SR (R203) -/
  | pSr
  /-- P_SR_OVERFLOW (R213) -/
  | pSrOverflow
  /-- P_SR_SEL_BOS1 (R211) -/
  | pSrSelBos1
  /-- P_SR_SEL_BOS0 (R212) -/
  | pSrSelBos0
  /-- P_IPV4 (R204) -/
  | pIpv4
  /-- P_ACCEPT (R205) -/
  | pAccept
  /-- DEC_ETH (40_codec.md R161) -/
  | decEth
  /-- DEC_ARP (R162) -/
  | decArp
  /-- DEC_SR (R163) -/
  | decSr
  /-- DEC_IPV4 (R164) -/
  | decIpv4
  /-- ARP_REPLY (42_decision.md R246) -/
  | arpReply
  /-- ARP_NONLOCAL (R244) -/
  | arpNonlocal
  /-- ARP_NOACTION (R245) -/
  | arpNoaction
  /-- SR_HOP (43_source_route.md R281) -/
  | srHop
  /-- IPV4_FWD_HIT (44_lpm.md R306) -/
  | ipv4FwdHit
  /-- IPV4_FWD_MISS (R307) -/
  | ipv4FwdMiss
  /-- FALLBACK_DROP (42_decision.md R248) -/
  | fallbackDrop
  /-- DISPATCH (R241) -/
  | dispatch
  /-- LAS_MEMBER(a) (R243) -/
  | lasMember (a : Ip)
  /-- LPM_LOOKUP(a) (44_lpm.md R302) -/
  | lpmLookup (a : Ip)
  /-- SR_POP (43_source_route.md R282) -/
  | srPop
  /-- TTL_DEC (42_decision.md R251) -/
  | ttlDec
  /-- CSUM_UPDATE (45_checksum.md R332) -/
  | csumUpdate
  /-- CSUM_COMPUTE (R331), of the current `hdr.ipv4` -/
  | csumCompute
  /-- DEPARSE (46_deparser.md R350) -/
  | deparse
  /-- EMIT_ETH (R351) -/
  | emitEth
  /-- EMIT_ARP (R352) -/
  | emitArp
  /-- EMIT_SR(i) (R353) -/
  | emitSr (i : BitVec 4)
  /-- EMIT_IPV4 (R354) -/
  | emitIpv4
  /-- EMIT_PAYLOAD (R356) -/
  | emitPayload
  /-- EGRESS_VERDICT (R358) -/
  | egressVerdict
  /-- ENC_ETH (40_codec.md R166) -/
  | encEth
  /-- ENC_ARP (R167) -/
  | encArp
  /-- ENC_SR of entry i (R168) -/
  | encSr (i : BitVec 4)
  /-- ENC_IPV4 (R169) -/
  | encIpv4
  /-- INGRESS(bytes, port) (20_memory.md R95) -/
  | ingress (bytes : List Byte) (port : Port)
  /-- EGRESS() (R96) -/
  | egress
  /-- FT_INSTALL(prefix, plen, port, mac) (R92); `plen` is a byte, so that a length above 32 can be asked for and refused -/
  | ftInstall (pfx : Ip) (plen : BitVec 8) (port : Port) (mac : Mac)
  /-- LAS_CONFIGURE(a0, a1, a2) (R93); `none` is an absent address -/
  | lasConfigure (a0 a1 a2 : Option Ip)
  deriving DecidableEq, Repr

/-- The `psk-select` rows of 30_encoding.md R123: what a parser step does next once its key is known. -/
inductive SelRow where
  | startArp | startSr | startIpv4 | startOther | srOverflow | srBos1 | srBos0
  deriving DecidableEq, Repr

/-- The `dsk` rows of 30_encoding.md R123: the one path the decision stage takes. -/
inductive DskRow where
  | arpReply | arpNonlocal | arpNoaction | srHop | ipv4FwdHit | ipv4FwdMiss | fallbackDrop
  deriving DecidableEq, Repr

/-- The operation a `psk-select` row names. -/
def SelRow.op : SelRow → Instr
  | .startArp => .pStartSelArp
  | .startSr => .pStartSelSr
  | .startIpv4 => .pStartSelIpv4
  | .startOther => .pStartSelOther
  | .srOverflow => .pSrOverflow
  | .srBos1 => .pSrSelBos1
  | .srBos0 => .pSrSelBos0

/-- The operation a `dsk` row names. -/
def DskRow.op : DskRow → Instr
  | .arpReply => .arpReply
  | .arpNonlocal => .arpNonlocal
  | .arpNoaction => .arpNoaction
  | .srHop => .srHop
  | .ipv4FwdHit => .ipv4FwdHit
  | .ipv4FwdMiss => .ipv4FwdMiss
  | .fallbackDrop => .fallbackDrop

/-- The host's four calls (30_encoding.md R123, the `host` rows), which select no key. -/
def Instr.isHostCall : Instr → Bool
  | .ingress _ _ | .egress | .ftInstall _ _ _ _ | .lasConfigure _ _ _ => true
  | .pStart | .pStartSelArp | .pStartSelSr | .pStartSelIpv4 | .pStartSelOther | .pArp | .pSr | .pSrOverflow
  | .pSrSelBos1 | .pSrSelBos0 | .pIpv4 | .pAccept | .decEth | .decArp | .decSr | .decIpv4 | .arpReply | .arpNonlocal
  | .arpNoaction | .srHop | .ipv4FwdHit | .ipv4FwdMiss | .fallbackDrop | .dispatch | .lasMember _ | .lpmLookup _
  | .srPop | .ttlDec | .csumUpdate | .csumCompute | .deparse | .emitEth | .emitArp | .emitSr _ | .emitIpv4
  | .emitPayload | .egressVerdict | .encEth | .encArp | .encSr _ | .encIpv4 => false

end Sys2Proof
end

