-- ==== Sys2Proof/WellFormed.lean ====
section
/-! DEFINITION. Which operation terms the block's rules give a meaning to: an entry index names one of the ten
source-route entry registers (10_state.md R38), and an operation that runs under a parameter set needs the three EtherType
constants pairwise distinct (30_encoding.md R118, `Params.distinct` of Config.lean). -/

namespace Sys2Proof

/-- The index of a source-route entry register is 0 to 9 (10_state.md R38). -/
def entryIndexOk (i : BitVec 4) : Bool := decide (i.toNat < Config.srCapacity)

/-- An operation is well formed when every entry index it carries names an entry register. -/
def Instr.wellFormed : Instr → Bool
  | .emitSr i => entryIndexOk i
  | .encSr i => entryIndexOk i
  | .pStart | .pStartSelArp | .pStartSelSr | .pStartSelIpv4 | .pStartSelOther | .pArp | .pSr | .pSrOverflow
  | .pSrSelBos1 | .pSrSelBos0 | .pIpv4 | .pAccept | .decEth | .decArp | .decSr | .decIpv4 | .arpReply | .arpNonlocal
  | .arpNoaction | .srHop | .ipv4FwdHit | .ipv4FwdMiss | .fallbackDrop | .dispatch | .lasMember _ | .lpmLookup _
  | .srPop | .ttlDec | .csumUpdate | .csumCompute | .deparse | .emitEth | .emitArp | .emitIpv4
  | .emitPayload | .egressVerdict | .encEth | .encArp | .encIpv4 | .ingress _ _ | .egress | .ftInstall _ _ _ _
  | .lasConfigure _ _ _ => true

end Sys2Proof
end

