-- ==== Sys2Proof/Decode.lean ====
section
/-! DEFINITION. Selecting an operation: the match and mask rows of 30_encoding.md R123 over the three select keys, and the
operation word the machine fetches.

The block decodes no instruction words (30_encoding.md, its opening lines; 20_memory.md R98): what selects an operation is a
key. An OPERATION WORD is the model's own way to write such a selection as bytes (log entry 1): a first byte says which
format column of the table applies, and the bytes after it hold that format's key, numbered as the table numbers it (bit 0 is
the least significant bit of the first key byte), or, for a row that selects no key, the row's place in its format's list and
the call's operands, most significant byte first. -/

namespace Sys2Proof

/-- Why bytes are no operation word. Each is a rejection by name; none of them changes any state (safe). -/
inductive DecodeError where
  /-- there is no first byte -/
  | empty
  /-- the first byte names no format -/
  | unknownFormat
  /-- the bytes after the first are too few or too many for their format -/
  | badLength
  /-- a bit above the key's width is set (30_encoding.md R120 to R122 give the widths) -/
  | reservedKeyBits
  /-- no row of the format matches the key -/
  | noRow
  /-- the format's list has no row at this place -/
  | unknownSelector
  /-- the entry index is not that of an entry register (10_state.md R38) -/
  | badIndex
  deriving DecidableEq, Repr

/-- One row of the operation map: it applies to a key `k` when `k & mask = pat` (30_encoding.md R123). -/
structure KeyRow (w : Nat) (α : Type) where
  pat : BitVec w
  mask : BitVec w
  op : α

/-- Rows are tried in the table's order and the first match wins (30_encoding.md R120, R121). -/
def firstRow {w : Nat} {α : Type} : List (KeyRow w α) → BitVec w → Option α
  | [], _ => none
  | r :: rs, k => if k &&& r.mask = r.pat then some r.op else firstRow rs k

/-- The `psk-state` rows (30_encoding.md R123). -/
def pskStateRows : List (KeyRow 20 Instr) :=
  [ ⟨0x00000#20, 0x70000#20, .pStart⟩,
    ⟨0x10000#20, 0x70000#20, .pArp⟩,
    ⟨0x20000#20, 0x70000#20, .pSr⟩,
    ⟨0x30000#20, 0x70000#20, .pIpv4⟩,
    ⟨0x40000#20, 0x70000#20, .pAccept⟩ ]

/-- The `psk-select` rows (30_encoding.md R123), with the source-route row's discriminator taken from the parameter. -/
def pskSelectRows (p : Params) : List (KeyRow 20 SelRow) :=
  [ ⟨0#4 ++ Config.etherArp, 0x7FFFF#20, .startArp⟩,
    ⟨0#4 ++ p.srType, 0x7FFFF#20, .startSr⟩,
    ⟨0#4 ++ Config.etherIpv4, 0x7FFFF#20, .startIpv4⟩,
    ⟨0x00000#20, 0x70000#20, .startOther⟩,
    ⟨0xA0000#20, 0xF0000#20, .srOverflow⟩,
    ⟨0x28000#20, 0xF8000#20, .srBos1⟩,
    ⟨0x20000#20, 0xF8000#20, .srBos0⟩ ]

/-- The `dsk` rows (30_encoding.md R123), with the source-route row's type tag taken from the parameter. -/
def dskRows (p : Params) : List (KeyRow 24 DskRow) :=
  [ ⟨Config.etherArp ++ 0x98#8, 0xFFFF98#24, .arpReply⟩,
    ⟨Config.etherArp ++ 0x90#8, 0xFFFF98#24, .arpNonlocal⟩,
    ⟨Config.etherArp ++ 0x80#8, 0xFFFF90#24, .arpNoaction⟩,
    ⟨p.srType ++ 0x40#8, 0xFFFF40#24, .srHop⟩,
    ⟨Config.etherIpv4 ++ 0x24#8, 0xFFFF24#24, .ipv4FwdHit⟩,
    ⟨Config.etherIpv4 ++ 0x20#8, 0xFFFF24#24, .ipv4FwdMiss⟩,
    ⟨0x000000#24, 0x000000#24, .fallbackDrop⟩ ]

/-- The `vk` row of the checksum stage (30_encoding.md R123). -/
def vkCsumRows : List (KeyRow 4 Instr) := [⟨0b0001#4, 0b0001#4, .csumUpdate⟩]

/-- The `vk` row that starts the serializer (30_encoding.md R123). -/
def vkDeparseRows : List (KeyRow 4 Instr) := [⟨0b0000#4, 0b0000#4, .deparse⟩]

/-- The `vk` rows of the emissions (30_encoding.md R123). Each is tested by itself inside DEPARSE; the first match of this
list is the meaning of a word that asks for one emission. `true` marks the row that also takes an entry index. -/
def vkEmitRows : List (KeyRow 4 (Instr × Bool)) :=
  [ ⟨0b1000#4, 0b1000#4, (.emitEth, false)⟩,
    ⟨0b0100#4, 0b0100#4, (.emitArp, false)⟩,
    ⟨0b0010#4, 0b0010#4, (.emitSr 0#4, true)⟩,
    ⟨0b0001#4, 0b0001#4, (.emitIpv4, false)⟩,
    ⟨0b0000#4, 0b0000#4, (.emitPayload, false)⟩ ]

/-- Format byte of the `psk-state` rows. -/
def fmtPskState : Byte := 0x00#8
/-- Format byte of the `psk-select` rows. -/
def fmtPskSelect : Byte := 0x01#8
/-- Format byte of the `layout` rows. -/
def fmtLayout : Byte := 0x02#8
/-- Format byte of the `dsk` rows. -/
def fmtDsk : Byte := 0x03#8
/-- Format byte of the `subop` rows. -/
def fmtSubop : Byte := 0x04#8
/-- Format byte of the `vk` row CSUM_UPDATE. -/
def fmtVkCsum : Byte := 0x05#8
/-- Format byte of the `vk` row DEPARSE. -/
def fmtVkDeparse : Byte := 0x06#8
/-- Format byte of the `vk` rows EMIT_*. -/
def fmtVkEmit : Byte := 0x07#8
/-- Format byte of the `state` row EGRESS_VERDICT. -/
def fmtState : Byte := 0x08#8
/-- Format byte of the `host` rows. -/
def fmtHost : Byte := 0x09#8

/-- A 24-bit key as three bytes, the least significant first. -/
def keyBytes (k : BitVec 24) : List Byte := [k.extractLsb' 0 8, k.extractLsb' 8 8, k.extractLsb' 16 8]

/-- The word of a parser select key. -/
def pskWord (fmt : Byte) (k : BitVec 20) : List Byte := fmt :: keyBytes (0#4 ++ k)

/-- The word of a decision select key. -/
def dskWord (k : BitVec 24) : List Byte := fmtDsk :: keyBytes k

/-- The word of a valid-vector key. -/
def vkWord (fmt : Byte) (k : BitVec 4) : List Byte := [fmt, 0#4 ++ k]

/-- Three bytes as a 20-bit parser key; the four bits above it must be 0. -/
def pskOfBytes : List Byte → Except DecodeError (BitVec 20)
  | [b0, b1, b2] =>
    if b2.extractLsb' 4 4 = 0#4 then .ok ((b2 ++ b1 ++ b0).extractLsb' 0 20) else .error .reservedKeyBits
  | _ => .error .badLength

/-- Three bytes as a 24-bit decision key. -/
def dskOfBytes : List Byte → Except DecodeError (BitVec 24)
  | [b0, b1, b2] => .ok (b2 ++ b1 ++ b0)
  | _ => .error .badLength

/-- One byte as a 4-bit valid vector; the four bits above it must be 0. -/
def vkOfByte (b : Byte) : Except DecodeError (BitVec 4) :=
  if b.extractLsb' 4 4 = 0#4 then .ok (b.extractLsb' 0 4) else .error .reservedKeyBits

/-- A key looked up in its rows. -/
def rowOf {w : Nat} {α : Type} (rows : List (KeyRow w α)) : Except DecodeError (BitVec w) → Except DecodeError α
  | .ok k => match firstRow rows k with
    | some a => .ok a
    | none => .error .noRow
  | .error e => .error e

/-- A valid-vector word's bytes looked up in their rows. -/
def vkRowOf {α : Type} (rows : List (KeyRow 4 α)) : List Byte → Except DecodeError α
  | [b] => rowOf rows (vkOfByte b)
  | _ => .error .badLength

/-- A 32-bit operand as four bytes, the most significant first. -/
def ipBytes (a : Ip) : List Byte := [a.extractLsb' 24 8, a.extractLsb' 16 8, a.extractLsb' 8 8, a.extractLsb' 0 8]

/-- A 16-bit operand as two bytes, the most significant first. -/
def portBytes (a : Port) : List Byte := [a.extractLsb' 8 8, a.extractLsb' 0 8]

/-- A 48-bit operand as six bytes, the most significant first. -/
def macBytes (a : Mac) : List Byte :=
  [a.extractLsb' 40 8, a.extractLsb' 32 8, a.extractLsb' 24 8, a.extractLsb' 16 8, a.extractLsb' 8 8, a.extractLsb' 0 8]

/-- An optional address: a byte 0, or a byte 1 and the address. -/
def optIpBytes : Option Ip → List Byte
  | none => [0x00#8]
  | some a => 0x01#8 :: ipBytes a

/-- Reads one optional address and gives the bytes after it. -/
def takeOptIp : List Byte → Option (Option Ip × List Byte)
  | [] => none
  | t :: rest =>
    if t = 0x00#8 then some (none, rest)
    else if t = 0x01#8 then
      match rest with
      | a :: b :: c :: d :: more => some (some (a ++ b ++ c ++ d), more)
      | _ => none
    else none

/-- The index byte of a source-route entry register. -/
def entryIndexOf (b : Byte) : Except DecodeError (BitVec 4) :=
  if b.extractLsb' 4 4 = 0#4 ∧ entryIndexOk (b.extractLsb' 0 4) = true then .ok (b.extractLsb' 0 4) else .error .badIndex

/-- The `layout` rows, in the table's order: DEC_* then ENC_*. -/
def decodeLayout : List Byte → Except DecodeError Instr
  | [s] => match s.toNat with
    | 0 => .ok .decEth
    | 1 => .ok .decArp
    | 2 => .ok .decSr
    | 3 => .ok .decIpv4
    | 4 => .ok .encEth
    | 5 => .ok .encArp
    | 6 => .error .badLength
    | 7 => .ok .encIpv4
    | _ => .error .unknownSelector
  | [s, i] =>
    if s = 0x06#8 then
      match entryIndexOf i with
      | .ok j => .ok (.encSr j)
      | .error e => .error e
    else .error .badLength
  | _ => .error .badLength

/-- The `subop` rows, in the table's order. -/
def decodeSubop : List Byte → Except DecodeError Instr
  | [s] => match s.toNat with
    | 0 => .ok .dispatch
    | 3 => .ok .srPop
    | 4 => .ok .ttlDec
    | 5 => .ok .csumCompute
    | 1 => .error .badLength
    | 2 => .error .badLength
    | _ => .error .unknownSelector
  | [s, a, b, c, d] => match s.toNat with
    | 1 => .ok (.lasMember (a ++ b ++ c ++ d))
    | 2 => .ok (.lpmLookup (a ++ b ++ c ++ d))
    | _ => .error .badLength
  | _ => .error .badLength

/-- The `vk` rows of the emissions: a key byte, and for EMIT_SR the entry index after it. -/
def decodeEmit : List Byte → Except DecodeError Instr
  | [k] => match rowOf vkEmitRows (vkOfByte k) with
    | .ok (i, false) => .ok i
    | .ok (_, true) => .error .badLength
    | .error e => .error e
  | [k, j] => match rowOf vkEmitRows (vkOfByte k) with
    | .ok (_, true) => match entryIndexOf j with
      | .ok i => .ok (.emitSr i)
      | .error e => .error e
    | .ok (_, false) => .error .badLength
    | .error e => .error e
  | _ => .error .badLength

/-- LAS_CONFIGURE's three optional addresses. -/
def decodeLasConfigure (w : List Byte) : Except DecodeError Instr :=
  match takeOptIp w with
  | some (a0, w1) => match takeOptIp w1 with
    | some (a1, w2) => match takeOptIp w2 with
      | some (a2, []) => .ok (.lasConfigure a0 a1 a2)
      | _ => .error .badLength
    | none => .error .badLength
  | none => .error .badLength

/-- FT_INSTALL's four operands. -/
def decodeFtInstall : List Byte → Except DecodeError Instr
  | [p0, p1, p2, p3, l, q0, q1, m0, m1, m2, m3, m4, m5] =>
    .ok (.ftInstall (p0 ++ p1 ++ p2 ++ p3) l (q0 ++ q1) (m0 ++ m1 ++ m2 ++ m3 ++ m4 ++ m5))
  | _ => .error .badLength

/-- INGRESS's port and frame; every byte after the port is the frame. -/
def decodeIngress : List Byte → Except DecodeError Instr
  | q0 :: q1 :: bytes => .ok (.ingress bytes (q0 ++ q1))
  | _ => .error .badLength

/-- The `host` rows, in the table's order. -/
def decodeHost : List Byte → Except DecodeError Instr
  | [] => .error .badLength
  | s :: rest => match s.toNat with
    | 0 => decodeIngress rest
    | 1 => match rest with
      | [] => .ok .egress
      | _ :: _ => .error .badLength
    | 2 => decodeFtInstall rest
    | 3 => decodeLasConfigure rest
    | _ => .error .unknownSelector

/-- The decoder: total on any bytes, rejecting by name. -/
def decode (p : Params) : List Byte → Except DecodeError Instr
  | [] => .error .empty
  | f :: rest => match f.toNat with
    | 0 => rowOf pskStateRows (pskOfBytes rest)
    | 1 => match rowOf (pskSelectRows p) (pskOfBytes rest) with
      | .ok r => .ok r.op
      | .error e => .error e
    | 2 => decodeLayout rest
    | 3 => match rowOf (dskRows p) (dskOfBytes rest) with
      | .ok r => .ok r.op
      | .error e => .error e
    | 4 => decodeSubop rest
    | 5 => vkRowOf vkCsumRows rest
    | 6 => vkRowOf vkDeparseRows rest
    | 7 => decodeEmit rest
    | 8 => match rest with
      | [] => .ok .egressVerdict
      | _ :: _ => .error .badLength
    | 9 => decodeHost rest
    | _ => .error .unknownFormat

/-- A type tag that is none of the three known ones: 0, or 1 where the source-route tag is 0 (30_encoding.md R118). -/
def otherTypeTag (p : Params) : Half := if p.srType = 0#16 then 1#16 else 0#16

/-- The encoder: the operation word of each operation, with the key bits its row does not fix all 0. The row
P_START_SEL_OTHER is reached only by a type tag that is none of the three known ones. -/
def encode (p : Params) : Instr → List Byte
  | .pStart => pskWord fmtPskState 0x00000#20
  | .pStartSelArp => pskWord fmtPskSelect (0#4 ++ Config.etherArp)
  | .pStartSelSr => pskWord fmtPskSelect (0#4 ++ p.srType)
  | .pStartSelIpv4 => pskWord fmtPskSelect (0#4 ++ Config.etherIpv4)
  | .pStartSelOther => pskWord fmtPskSelect (0#4 ++ otherTypeTag p)
  | .pArp => pskWord fmtPskState 0x10000#20
  | .pSr => pskWord fmtPskState 0x20000#20
  | .pSrOverflow => pskWord fmtPskSelect 0xA0000#20
  | .pSrSelBos1 => pskWord fmtPskSelect 0x28000#20
  | .pSrSelBos0 => pskWord fmtPskSelect 0x20000#20
  | .pIpv4 => pskWord fmtPskState 0x30000#20
  | .pAccept => pskWord fmtPskState 0x40000#20
  | .decEth => [fmtLayout, 0x00#8]
  | .decArp => [fmtLayout, 0x01#8]
  | .decSr => [fmtLayout, 0x02#8]
  | .decIpv4 => [fmtLayout, 0x03#8]
  | .arpReply => dskWord (Config.etherArp ++ 0x98#8)
  | .arpNonlocal => dskWord (Config.etherArp ++ 0x90#8)
  | .arpNoaction => dskWord (Config.etherArp ++ 0x80#8)
  | .srHop => dskWord (p.srType ++ 0x40#8)
  | .ipv4FwdHit => dskWord (Config.etherIpv4 ++ 0x24#8)
  | .ipv4FwdMiss => dskWord (Config.etherIpv4 ++ 0x20#8)
  | .fallbackDrop => dskWord 0x000000#24
  | .dispatch => [fmtSubop, 0x00#8]
  | .lasMember a => fmtSubop :: 0x01#8 :: ipBytes a
  | .lpmLookup a => fmtSubop :: 0x02#8 :: ipBytes a
  | .srPop => [fmtSubop, 0x03#8]
  | .ttlDec => [fmtSubop, 0x04#8]
  | .csumUpdate => vkWord fmtVkCsum 0b0001#4
  | .csumCompute => [fmtSubop, 0x05#8]
  | .deparse => vkWord fmtVkDeparse 0b0000#4
  | .emitEth => vkWord fmtVkEmit 0b1000#4
  | .emitArp => vkWord fmtVkEmit 0b0100#4
  | .emitSr i => vkWord fmtVkEmit 0b0010#4 ++ [0#4 ++ i]
  | .emitIpv4 => vkWord fmtVkEmit 0b0001#4
  | .emitPayload => vkWord fmtVkEmit 0b0000#4
  | .egressVerdict => [fmtState]
  | .encEth => [fmtLayout, 0x04#8]
  | .encArp => [fmtLayout, 0x05#8]
  | .encSr i => [fmtLayout, 0x06#8, 0#4 ++ i]
  | .encIpv4 => [fmtLayout, 0x07#8]
  | .ingress bytes port => fmtHost :: 0x00#8 :: (portBytes port ++ bytes)
  | .egress => [fmtHost, 0x01#8]
  | .ftInstall pfx plen port mac => fmtHost :: 0x02#8 :: (ipBytes pfx ++ plen :: (portBytes port ++ macBytes mac))
  | .lasConfigure a0 a1 a2 => fmtHost :: 0x03#8 :: (optIpBytes a0 ++ optIpBytes a1 ++ optIpBytes a2)

/-- What the decoder answers, as an option. -/
def decoded (p : Params) (w : List Byte) : Option Instr :=
  match decode p w with
  | .ok i => some i
  | .error _ => none

/-- The operation word of a parser key as the opcode table writes it, without a format. A key whose discriminator is 0 is
the key of a step that has formed none yet, and is read in the `psk-state` rows, but for the overflow row, which is tried before
the decode; any other key of START or PARSE_SR is read in the `psk-select` rows (log entry 2). -/
def tablePskWord (k : BitVec 20) : List Byte :=
  if k.extractLsb' 16 4 = 0xA#4 then pskWord fmtPskSelect k
  else if k.extractLsb' 0 16 ≠ 0#16 ∧ (k.extractLsb' 16 3 = 0#3 ∨ k.extractLsb' 16 3 = 2#3) then pskWord fmtPskSelect k
  else pskWord fmtPskState k

/-- The operation word of a valid vector as the opcode table writes it, without a format: CSUM_UPDATE and EMIT_IPV4 share
one row's bits, DEPARSE and EMIT_PAYLOAD another's, and the first of each pair in the table's order is read (log entry 2). -/
def tableVkWord (k : BitVec 4) : List Byte :=
  if k = 0b0001#4 then vkWord fmtVkCsum k
  else if k = 0b0000#4 then vkWord fmtVkDeparse k
  else if k = 0b0010#4 then vkWord fmtVkEmit k ++ [0x00#8]
  else vkWord fmtVkEmit k

/-- A three-byte key is a decision key when its upper 16 bits are one of the three known type tags: as a parser key it would
have PSK[19] set in START, or a bit above PSK[19] set, and no parser step forms such a key (log entry 2). -/
def tableKeyWord (k : BitVec 24) : List Byte :=
  if k.extractLsb' 8 16 = Config.etherArp ∨ k.extractLsb' 8 16 = Config.etherIpv4
      ∨ k.extractLsb' 8 16 = Config.etherSrDefault then dskWord k
  else tablePskWord (k.extractLsb' 0 20)

/-- The operation word that stands for `nbits` bits `w` of an opcode-table row: the number of bits tells the key (VK in one
byte, PSK in three, DSK in three or, as the table's reader counts one bit past each key, four), and a header's width its DEC_
row. -/
def tableWord (nbits w : Nat) : List Byte :=
  match nbits with
  | 8 => tableVkWord (BitVec.ofNat 4 w)
  | 24 => tableKeyWord (BitVec.ofNat 24 w)
  | 32 => dskWord (BitVec.ofNat 24 w)
  | 112 => [fmtLayout, 0x00#8]
  | 224 => [fmtLayout, 0x01#8]
  | 16 => [fmtLayout, 0x02#8]
  | 160 => [fmtLayout, 0x03#8]
  | _ => []

/-- The operation the decoder reads from an opcode-table row's bits, under the default parameters. -/
def decodeTableWord (nbits w : Nat) : Option Instr := decoded Params.default (tableWord nbits w)

end Sys2Proof
end

