-- ==== Sys2Proof/Machine/State.lean ====
section
/-! DEFINITION. The state of the block as plain data (10_state.md), the reasons a step can stop, and the state after reset.

The field names follow 10_state.md, with its prefixes `hdr.` and `meta.` dropped. A register that "holds no value"
(10_state.md R41, R55) holds some value here too; the accessors of Machine/Ops.lean stop a read of it, and the flags that say
whether it may be read are the spec's own valid flags or, for `meta.ingress_port` and `meta.payload_off`, a flag of the model
(log entry 4). -/

namespace Sys2Proof.Machine

/-- The pipeline stage register (10_state.md R31). -/
inductive Stage where
  | idle | parse | decide | csum | deparse | done
  deriving DecidableEq, Repr

/-- The stage's code (10_state.md R31). -/
def Stage.code : Stage → BitVec 3
  | .idle => 0 | .parse => 1 | .decide => 2 | .csum => 3 | .deparse => 4 | .done => 5

/-- The parser state register (10_state.md R32). -/
inductive PState where
  | start | parseArp | parseSr | parseIpv4 | accept | reject
  deriving DecidableEq, Repr

/-- The parser state's code, the bits PSK[18:16] (10_state.md R32). -/
def PState.code : PState → BitVec 3
  | .start => 0 | .parseArp => 1 | .parseSr => 2 | .parseIpv4 => 3 | .accept => 4 | .reject => 5

/-- The parser state of a code; codes 6 and 7 name none (10_state.md R32). -/
def PState.ofCode (c : BitVec 3) : Option PState :=
  match c.toNat with
  | 0 => some .start | 1 => some .parseArp | 2 => some .parseSr | 3 => some .parseIpv4 | 4 => some .accept
  | 5 => some .reject | _ => none

/-- The cause of a frame's drop, `meta.err` (60_exceptions.md R372). Code 7 is never written and has no constructor. -/
inductive Cause where
  | none | truncatedHeader | sourceRouteOverflow | noMatch | unhandledType | noAction | ttlExpired
  deriving DecidableEq, Repr

/-- The cause's code in the 3 bits of `meta.err` (60_exceptions.md R372). -/
def Cause.code : Cause → BitVec 3
  | .none => 0 | .truncatedHeader => 1 | .sourceRouteOverflow => 2 | .noMatch => 3 | .unhandledType => 4
  | .noAction => 5 | .ttlExpired => 6

/-- `hdr.eth` (10_state.md R36). -/
structure Eth where
  valid : Bool
  dst : Mac
  src : Mac
  etype : Half
  deriving DecidableEq, Repr

/-- `hdr.arp` (10_state.md R37). -/
structure Arp where
  valid : Bool
  htype : Half
  ptype : Half
  hlen : Byte
  plen : Byte
  oper : Half
  sha : Mac
  spa : Ip
  tha : Mac
  tpa : Ip
  deriving DecidableEq, Repr

/-- One entry register `hdr.sr.e[i]` (10_state.md R38). -/
structure SrEntry where
  bos : Bool
  port : BitVec 15
  deriving DecidableEq, Repr

/-- `hdr.sr`: the length counter and the ten entry registers; entry `i` is valid exactly when `i < len` (10_state.md R38). -/
structure SrStack where
  len : Nat
  e : Vector SrEntry 10
  deriving DecidableEq, Repr

/-- `hdr.ipv4` (10_state.md R39). -/
structure Ipv4 where
  valid : Bool
  version : BitVec 4
  ihl : BitVec 4
  tos : Byte
  totalLen : Half
  ident : Half
  flags : BitVec 3
  fragOff : BitVec 13
  ttl : Byte
  protocol : Byte
  checksum : Half
  src : Ip
  dst : Ip
  deriving DecidableEq, Repr

/-- A frame buffer: a byte at each of the addresses 0 to `len - 1` (20_memory.md R80, R82, R87). An address that is not listed
does not exist, and reading it is a fault (00_scope.md R18). -/
abbrev Memory := List Host.Cell

/-- `len(IN)` or `len(OUT)`. -/
abbrev Memory.size (m : Memory) : Nat := m.length

/-- The canonical form of a buffer: exactly the addresses 0 to `len - 1`, rising, each once (20_memory.md R80). An unlisted
address reads as no value, so no entry can equal what an unlisted address reads as. -/
abbrev Memory.wf (m : Memory) : Prop := m.map Prod.fst = List.range m.length

/-- One entry register `FT[i]` (10_state.md R48). -/
structure FtEntry where
  valid : Bool
  pfx : Ip
  plen : BitVec 6
  port : Port
  mac : Mac
  deriving DecidableEq, Repr

/-- One entry register `LAS[j]` (10_state.md R50). -/
structure LasEntry where
  valid : Bool
  addr : Ip
  deriving DecidableEq, Repr

/-- One complete published version of the configuration (20_memory.md R89, 10_state.md R48, R50). `ft` lists `FT[0]`,
`FT[1]`, …; an index below 1024 that is not listed holds an entry with valid 0 (log entry 5). The default drop entry has no
fields and is not listed (44_lpm.md R304). -/
structure Snapshot where
  ft : List FtEntry
  las : Vector LasEntry 3
  deriving DecidableEq, Repr

/-- The per-frame state of one pipeline instance (10_state.md sections 1 to 5). The last two fields are the model's own. -/
structure Pipe where
  /-- `stage` (R31) -/
  stage : Stage
  /-- `pstate` (R32) -/
  pstate : PState
  /-- `cur` (R33) -/
  cur : Nat
  /-- `hdr.eth` (R36) -/
  eth : Eth
  /-- `hdr.arp` (R37) -/
  arp : Arp
  /-- `hdr.sr` (R38) -/
  sr : SrStack
  /-- `hdr.ipv4` (R39) -/
  ipv4 : Ipv4
  /-- `meta.ingress_port` (R42) -/
  ingressPort : Port
  /-- the model's flag: `meta.ingress_port` holds a value (R55; log entry 4) -/
  ingressSet : Bool
  /-- `meta.egress_valid` (R43) -/
  egressValid : Bool
  /-- `meta.egress_port` (R43) -/
  egressPort : Port
  /-- `meta.drop` (R44) -/
  drop : Bool
  /-- `meta.err` (R45) -/
  err : Cause
  /-- `meta.payload_off` (R35) -/
  payloadOff : Nat
  /-- the model's flag: `meta.payload_off` holds a value (R55; log entry 4) -/
  payloadSet : Bool
  /-- the input frame buffer `IN` (R47) -/
  inBuf : Memory
  /-- the output buffer `OUT` (R47) -/
  outBuf : Memory
  /-- the model's own: snapshots replaced since this frame's ingress and before its configuration read, newest first
  (20_memory.md R90; log entry 3) -/
  older : List Snapshot
  /-- the model's own: this frame's draw number (20_memory.md R90; log entry 3) -/
  drawId : Nat
  deriving DecidableEq, Repr

/-- The egress verdict (46_deparser.md R358). -/
inductive Verdict where
  | drop | sentinel | forward
  deriving DecidableEq, Repr

/-- The egress result: verdict, port (absent for a drop), bytes and cause (46_deparser.md R358). -/
structure EgressResult where
  verdict : Verdict
  port : Option Port
  bytes : List Byte
  cause : Cause
  deriving DecidableEq, Repr

/-- The port and next-hop address of a lookup that hits (44_lpm.md R302). -/
structure Route where
  port : Port
  mac : Mac
  deriving DecidableEq, Repr

/-- What the last value-returning operation gave its caller. The spec's sub-operations return values to the rule that calls
them; the model holds the value where it can be seen when such an operation is run by itself (log entry 6). -/
inductive Returned where
  /-- nothing returned yet -/
  | nothing
  /-- LAS_MEMBER (42_decision.md R243) -/
  | member (b : Bool)
  /-- LPM_LOOKUP; `none` is a miss (44_lpm.md R302) -/
  | lookup (r : Option Route)
  /-- CSUM_COMPUTE (45_checksum.md R331) -/
  | checksum (c : Half)
  /-- EGRESS_VERDICT (46_deparser.md R358) -/
  | verdict (r : EgressResult)
  /-- FT_INSTALL: carried out, or refused with nothing changed (20_memory.md R92) -/
  | installed (accepted : Bool)
  deriving DecidableEq, Repr

/-- Whose turn it is (00_scope.md R24). The order of the agents' turns is not fixed by the spec (70_reset_and_hazards.md
R415), so it is data of the state (log entry 7). -/
inductive Turn where
  /-- the active pipeline instance takes its own next step -/
  | own
  /-- the transport or the control plane makes a call, given as its operation word -/
  | call (word : List Byte)
  /-- another pipeline instance becomes the active one: the `k`-th of the parked ones -/
  | switchTo (k : Nat)
  /-- block reset (70_reset_and_hazards.md R400) -/
  | blockReset
  deriving DecidableEq, Repr

/-- The whole machine: the build-time constants, the published configuration, the active pipeline instance and the
`N_PIPES - 1` others, and the host side's turns and results. -/
structure State where
  /-- the OPEN parameters, fixed at build (10_state.md R51) -/
  params : Params
  /-- the published configuration `FT` and `LAS` (R48 to R50) -/
  cfg : Snapshot
  /-- the active pipeline instance (R30) -/
  pipe : Pipe
  /-- the other pipeline instances (60_exceptions.md R387) -/
  parked : List Pipe
  /-- the turns to come, the next first; when there are none the active instance goes on by itself (log entry 7) -/
  agenda : List Turn
  /-- the model's own: frames taken in so far, which numbers the draws (log entry 3) -/
  draws : Nat
  /-- the value of the last operation that returned one (log entry 6) -/
  ret : Returned
  /-- the egress results the transport has taken, the last one last (20_memory.md R96) -/
  delivered : List EgressResult
  deriving DecidableEq, Repr

/-- Why the machine stops with a fault. A conforming block produces none of these (60_exceptions.md R391), so each is safe:
the model stops where the spec says that an element holds no value. -/
inductive Fault where
  /-- an operation read a field of `hdr.eth` with valid 0 (10_state.md R41); safe -/
  | invalidEth
  /-- an operation read a field of `hdr.arp` with valid 0 (R41); safe -/
  | invalidArp
  /-- an operation read a field of `hdr.ipv4` with valid 0 (R41); safe -/
  | invalidIpv4
  /-- SR_HOP, SR_POP, ENC_SR, EMIT_SR or DEC_SR used a source-route entry outside the stack (43_source_route.md R283); safe -/
  | srIndex
  /-- the egress verdict read `meta.egress_port` with `meta.egress_valid` 0 (R41); safe -/
  | noEgressPort
  /-- ARP_REPLY read `meta.ingress_port` after block reset and before INGRESS, where a model must fault on reading it (R55,
  93_implementation_defined.md I13); safe -/
  | noIngressPort
  /-- EMIT_PAYLOAD read `meta.payload_off` before ACCEPT (60_exceptions.md R391); safe -/
  | noPayloadOff
  /-- a decode or the payload copy read a byte at an address that does not exist (00_scope.md R18); safe -/
  | memReadPastEnd
  /-- IPV4_FWD_HIT ran on an address that no entry matches: the lookup returned no port (44_lpm.md R302); safe -/
  | noRoute
  /-- a select key matches no row of its format (93_implementation_defined.md I15); safe -/
  | noSelectRow
  deriving DecidableEq, Repr

/-- Why a step is refused: it is not enabled, or the host's call is one the spec refuses. Each is safe: nothing is changed. -/
inductive Refusal where
  /-- the operation has no meaning in this model; raised by no meaning, only by an arm of exec; safe -/
  | notModelled (mnemonic : String)
  /-- two EtherType constants are equal: the configuration is refused (30_encoding.md R118); raised by step; safe -/
  | equalEtherTypes
  /-- the active instance is IDLE and nothing is pending: no step is enabled until INGRESS (60_exceptions.md R390); safe -/
  | idle
  /-- the active instance is DONE and the transport has not taken its result: stuck until EGRESS (60_exceptions.md R391); safe -/
  | resultHeld
  /-- INGRESS on an instance that is not IDLE (20_memory.md R95); safe -/
  | ingressNotIdle
  /-- INGRESS with `port = NO_PORT` (20_memory.md R95, 60_exceptions.md R391); safe -/
  | ingressNoPort
  /-- INGRESS of a frame longer than `MAX_FRAME_LEN` (20_memory.md R80, 93_implementation_defined.md I11); safe -/
  | frameTooLong
  /-- EGRESS on an instance that is not DONE (20_memory.md R96); safe -/
  | egressNotDone
  /-- a turn names a pipeline instance that does not exist; raised by step; safe -/
  | noSuchInstance
  /-- the host's call is no operation word; raised by step; safe -/
  | malformedCall (e : DecodeError)
  /-- the host's call names an operation that is not one of the host's four (20_memory.md R94, 60_exceptions.md R384); safe -/
  | notHostCall
  deriving DecidableEq, Repr

/-- A `hdr.eth` with valid 0; its fields hold no value (log entry 4). -/
def Eth.none : Eth := { valid := false, dst := 0, src := 0, etype := 0 }

/-- A `hdr.arp` with valid 0; its fields hold no value (log entry 4). -/
def Arp.none : Arp :=
  { valid := false, htype := 0, ptype := 0, hlen := 0, plen := 0, oper := 0, sha := 0, spa := 0, tha := 0, tpa := 0 }

/-- An empty source-route stack; its entries hold no value (log entry 4). -/
def SrStack.empty : SrStack := { len := 0, e := Vector.replicate 10 { bos := false, port := 0 } }

/-- A `hdr.ipv4` with valid 0; its fields hold no value (log entry 4). -/
def Ipv4.none : Ipv4 :=
  { valid := false, version := 0, ihl := 0, tos := 0, totalLen := 0, ident := 0, flags := 0, fragOff := 0, ttl := 0,
    protocol := 0, checksum := 0, src := 0, dst := 0 }

/-- The per-frame state after reset (10_state.md R55, first column). -/
def Pipe.reset : Pipe :=
  { stage := .idle, pstate := .start, cur := 0, eth := Eth.none, arp := Arp.none, sr := SrStack.empty, ipv4 := Ipv4.none,
    ingressPort := 0, ingressSet := false, egressValid := false, egressPort := 0, drop := false, err := .none,
    payloadOff := 0, payloadSet := false, inBuf := [], outBuf := [], older := [], drawId := 0 }

/-- A LocalAddressSet with no valid entry (10_state.md R50). -/
def lasEmpty : Vector LasEntry 3 := Vector.replicate 3 { valid := false, addr := 0 }

/-- The machine at power-on, for every value of the OPEN parameters: the parameters, the build-time LocalAddressSet and how
many pipeline instances there are beside the first (70_reset_and_hazards.md R401, 60_exceptions.md R387). -/
def State.powerOn (p : Params) (las : Vector LasEntry 3) (others : Nat) : State :=
  { params := p, cfg := { ft := [], las := las }, pipe := Pipe.reset, parked := List.replicate others Pipe.reset,
    agenda := [], draws := 0, ret := .nothing, delivered := [] }

/-- The machine right after reset: power-on with the default parameters of 92_eei_decisions.md's table. That table gives the
OPEN parameter `LAS` no default; here no local address is configured (log entry 8). -/
def State.reset : State := State.powerOn Params.default lasEmpty 0

end Sys2Proof.Machine
end

