-- ==== Sys2Proof/Machine/Operands.lean ====
section
/-! DEFINITION. Byte order and the layouts of the four header formats (20_memory.md R81, R85; 30_encoding.md R111 to R116):
every header is one big-endian bit string `H`, and its fields are slices of it. -/

namespace Sys2Proof.Machine

/-- The number a byte sequence spells, most significant byte first (00_scope.md R18, 20_memory.md R81). -/
def valueOf (bs : List Byte) : Nat := bs.foldl (fun acc b => acc * 256 + b.toNat) 0

/-- A byte sequence as a bit string of `n` bytes (00_scope.md R18). -/
def bitsOf (n : Nat) (bs : List Byte) : BitVec (8 * n) := BitVec.ofNat (8 * n) (valueOf bs)

/-- The `n` bytes of a bit string, most significant byte first: byte `k` is `v[8(n-k)-1 : 8(n-k)-8]` (00_scope.md R19). -/
def bytesOf (n : Nat) (v : BitVec (8 * n)) : List Byte := (List.range n).map fun k => v.extractLsb' (8 * (n - 1 - k)) 8

/-- The Ethernet header's fields of its bit string, valid (30_encoding.md R111). -/
def unpackEth (h : BitVec 112) : Eth :=
  { valid := true, dst := h.extractLsb' 64 48, src := h.extractLsb' 16 48, etype := h.extractLsb' 0 16 }

/-- The Ethernet header's bit string (30_encoding.md R111, 40_codec.md R166). -/
def packEth (e : Eth) : BitVec 112 := e.dst ++ e.src ++ e.etype

/-- The ArpMessage's fields of its bit string, valid (30_encoding.md R112). -/
def unpackArp (h : BitVec 224) : Arp :=
  { valid := true, htype := h.extractLsb' 208 16, ptype := h.extractLsb' 192 16, hlen := h.extractLsb' 184 8,
    plen := h.extractLsb' 176 8, oper := h.extractLsb' 160 16, sha := h.extractLsb' 112 48, spa := h.extractLsb' 80 32,
    tha := h.extractLsb' 32 48, tpa := h.extractLsb' 0 32 }

/-- The ArpMessage's bit string (30_encoding.md R112, 40_codec.md R167). -/
def packArp (a : Arp) : BitVec 224 :=
  a.htype ++ a.ptype ++ a.hlen ++ a.plen ++ a.oper ++ a.sha ++ a.spa ++ a.tha ++ a.tpa

/-- A source-route entry's fields of its bit string: the flag is the most significant bit (30_encoding.md R113). -/
def unpackSr (h : BitVec 16) : SrEntry := { bos := h.getLsbD 15, port := h.extractLsb' 0 15 }

/-- A source-route entry's bit string (30_encoding.md R113, 40_codec.md R168). -/
def packSr (e : SrEntry) : BitVec 16 := BitVec.ofBool e.bos ++ e.port

/-- The Ipv4Header's fields of its bit string, valid (30_encoding.md R114). -/
def unpackIpv4 (h : BitVec 160) : Ipv4 :=
  { valid := true, version := h.extractLsb' 156 4, ihl := h.extractLsb' 152 4, tos := h.extractLsb' 144 8,
    totalLen := h.extractLsb' 128 16, ident := h.extractLsb' 112 16, flags := h.extractLsb' 109 3,
    fragOff := h.extractLsb' 96 13, ttl := h.extractLsb' 88 8, protocol := h.extractLsb' 80 8,
    checksum := h.extractLsb' 64 16, src := h.extractLsb' 32 32, dst := h.extractLsb' 0 32 }

/-- The Ipv4Header's bit string (30_encoding.md R114, 40_codec.md R169). -/
def packIpv4 (i : Ipv4) : BitVec 160 :=
  i.version ++ i.ihl ++ i.tos ++ i.totalLen ++ i.ident ++ i.flags ++ i.fragOff ++ i.ttl ++ i.protocol ++ i.checksum
    ++ i.src ++ i.dst

/-- The wire bytes of each header register (40_codec.md R165). -/
def ethBytes (e : Eth) : List Byte := bytesOf 14 (packEth e)
/-- The 28 wire bytes of an ArpMessage (40_codec.md R167). -/
def arpBytes (a : Arp) : List Byte := bytesOf 28 (packArp a)
/-- The 2 wire bytes of a source-route entry (40_codec.md R168). -/
def srBytes (e : SrEntry) : List Byte := bytesOf 2 (packSr e)
/-- The 20 wire bytes of an Ipv4Header (40_codec.md R169). -/
def ipv4Bytes (i : Ipv4) : List Byte := bytesOf 20 (packIpv4 i)

/-- The 15-bit port widened to the egress target's width (30_encoding.md R116). -/
def egressPortOf (e : SrEntry) : Port := e.port.setWidth 16

end Sys2Proof.Machine
end

