-- ==== Sys2Proof/Machine/Ops.lean ====
section
/-! DEFINITION. The named operations over buffers and registers, and the two ways an operation raises (60_exceptions.md R376,
R378). Every meaning is written over these. -/

namespace Sys2Proof.Machine

/-! ## Buffers -/

/-- The byte at an address, if the address exists (20_memory.md R80). -/
def readByte (m : Memory) (a : Nat) : Option Byte := List.lookup a m

/-- The `n` bytes from an address on, if all of them exist. -/
def readBytes (m : Memory) (a : Nat) : Nat → Option (List Byte)
  | 0 => some []
  | n + 1 => match readByte m a, readBytes m (a + 1) n with
    | some b, some bs => some (b :: bs)
    | _, _ => none

/-- Bytes laid out at rising addresses from `a` on. -/
def cellsFrom (a : Nat) : List Byte → Memory
  | [] => []
  | b :: bs => (a, b) :: cellsFrom (a + 1) bs

/-- A buffer that holds a byte sequence from address 0 on (20_memory.md R80). -/
def bufferOf (bs : List Byte) : Memory := cellsFrom 0 bs

/-- The byte sequence a buffer holds. -/
def contents (m : Memory) : List Byte := m.map Prod.snd

/-- Append at the end of a buffer: the one way `OUT` is written (20_memory.md R82, 00_scope.md R19). -/
def appendBytes (m : Memory) (bs : List Byte) : Memory := m ++ cellsFrom m.size bs

/-- `MemRead(addr, n)` (00_scope.md R18); a read past the end is a fault of the model. -/
def memRead (m : Memory) (addr n : Nat) : Except Fault (BitVec (8 * n)) :=
  if addr + n ≤ m.size then
    match readBytes m addr n with
    | some bs => .ok (bitsOf n bs)
    | none => .error .memReadPastEnd
  else .error .memReadPastEnd

/-! ## How an operation goes on -/

/-- What an operation does: it goes on, it has raised and so ended (42_decision.md R252, 60_exceptions.md R376), or the model
stops. -/
inductive Flow where
  | go (s : State)
  | raised (s : State)
  | stop (f : Fault)
  deriving DecidableEq, Repr

/-- The statements after `x`; they do not run when `x` raised (42_decision.md R252). -/
def Flow.andThen (x : Flow) (k : State → Flow) : Flow :=
  match x with
  | .go s => k s
  | .raised s => .raised s
  | .stop f => .stop f

/-- The outcome of a whole operation. A raise is an ordinary next state: the entry sequence has been carried out. -/
def Flow.outcome : Flow → Host.Outcome State Fault Refusal
  | .go s => .next s
  | .raised s => .next s
  | .stop f => .fault f

/-- Go on with a value that was read; an unreadable one stops the model (10_state.md R41). -/
def withVal {α : Type} (x : Except Fault α) (k : α → Flow) : Flow :=
  match x with
  | .ok a => k a
  | .error f => .stop f

/-! ## Registers -/

/-- The state with another per-frame state of the active instance. -/
def State.setPipe (s : State) (p : Pipe) : State := { s with pipe := p }

/-- `hdr.eth`, when its valid flag is 1 (10_state.md R41). -/
def readEth (s : State) : Except Fault Eth := if s.pipe.eth.valid then .ok s.pipe.eth else .error .invalidEth

/-- `hdr.arp`, when its valid flag is 1 (10_state.md R41). -/
def readArp (s : State) : Except Fault Arp := if s.pipe.arp.valid then .ok s.pipe.arp else .error .invalidArp

/-- `hdr.ipv4`, when its valid flag is 1 (10_state.md R41). -/
def readIpv4 (s : State) : Except Fault Ipv4 := if s.pipe.ipv4.valid then .ok s.pipe.ipv4 else .error .invalidIpv4

/-- `hdr.sr.e[i]`, when `i < hdr.sr.len` (10_state.md R38, 43_source_route.md R283). -/
def readEntry (s : State) (i : Nat) : Except Fault SrEntry :=
  if i < s.pipe.sr.len then
    match s.pipe.sr.e[i]? with
    | some e => .ok e
    | none => .error .srIndex
  else .error .srIndex

/-- `meta.ingress_port` (10_state.md R42): the port INGRESS wrote. After block reset and until INGRESS it is unspecified, and
"a model must fault on reading it" (R55; 93_implementation_defined.md I13). -/
def readIngressPort (s : State) : Except Fault Port :=
  if s.pipe.ingressSet then .ok s.pipe.ingressPort else .error .noIngressPort

/-- `meta.egress_port`, when `meta.egress_valid = 1` (10_state.md R43). -/
def readEgressPort (s : State) : Except Fault Port :=
  if s.pipe.egressValid then .ok s.pipe.egressPort else .error .noEgressPort

/-- `meta.payload_off`, once the parser has accepted (10_state.md R35, R55). -/
def readPayloadOff (s : State) : Except Fault Nat :=
  if s.pipe.payloadSet then .ok s.pipe.payloadOff else .error .noPayloadOff

/-- `pstate <- p` (00_scope.md R21). -/
def setPState (s : State) (p : PState) : State := s.setPipe { s.pipe with pstate := p }

/-- `stage <- g` (00_scope.md R21). -/
def setStage (s : State) (g : Stage) : State := s.setPipe { s.pipe with stage := g }

/-- `hdr.eth <- e`. -/
def setEth (s : State) (e : Eth) : State := s.setPipe { s.pipe with eth := e }

/-- `hdr.arp <- a`. -/
def setArp (s : State) (a : Arp) : State := s.setPipe { s.pipe with arp := a }

/-- `hdr.sr <- t`. -/
def setSr (s : State) (t : SrStack) : State := s.setPipe { s.pipe with sr := t }

/-- `hdr.ipv4 <- i`. -/
def setIpv4 (s : State) (i : Ipv4) : State := s.setPipe { s.pipe with ipv4 := i }

/-- `cur <- c` (10_state.md R33). -/
def setCur (s : State) (c : Nat) : State := s.setPipe { s.pipe with cur := c }

/-- `meta.egress_valid <- 1` and `meta.egress_port <- port` (10_state.md R43). -/
def setEgress (s : State) (port : Port) : State := s.setPipe { s.pipe with egressValid := true, egressPort := port }

/-- Append wire bytes to `OUT` (40_codec.md R165). -/
def emit (s : State) (bs : List Byte) : State := s.setPipe { s.pipe with outBuf := appendBytes s.pipe.outBuf bs }

/-- Hold the value an operation returns. -/
def setRet (s : State) (r : Returned) : State := { s with ret := r }

/-! ## Exceptions: the two entry sequences

There is no return from either (60_exceptions.md R381): the frame ends in DONE and EGRESS takes its result. -/

/-- Parse-error entry (41_parser.md R206, 60_exceptions.md R376): the state after `raise ParseError(kind)`. -/
def enterParseError (s : State) (c : Cause) : State :=
  s.setPipe { s.pipe with pstate := .reject, err := c, drop := true, stage := .done }

/-- `raise ParseError(kind)` (00_scope.md R20). -/
def raiseParseError (s : State) (c : Cause) : Flow := .raised (enterParseError s c)

/-- Decision-drop entry (60_exceptions.md R378): the state after `raise Drop(code)`. -/
def enterDrop (s : State) (c : Cause) : State := s.setPipe { s.pipe with err := c, drop := true }

/-- `raise Drop(code)` (00_scope.md R20). -/
def raiseDrop (s : State) (c : Cause) : Flow := .raised (enterDrop s c)

/-! ## Reset and the start of a frame -/

/-- Block reset of one pipeline instance (10_state.md R55, 70_reset_and_hazards.md R400): the registers the first column
names; every other one keeps what it held and may not be read. -/
def resetPipe (p : Pipe) : Pipe :=
  { p with
    stage := .idle, pstate := .start, cur := 0, eth := { p.eth with valid := false }, arp := { p.arp with valid := false },
    sr := { p.sr with len := 0 }, ipv4 := { p.ipv4 with valid := false }, ingressSet := false, egressValid := false,
    drop := false, err := .none, payloadSet := false, inBuf := [], outBuf := [], older := [] }

/-- Per-frame initialisation (70_reset_and_hazards.md R402): exactly the writes it lists; the frame's draw is new and no
snapshot has been replaced since its ingress (20_memory.md R90). -/
def startFrame (p : Pipe) (bytes : List Byte) (port : Port) (draw : Nat) : Pipe :=
  { p with
    inBuf := bufferOf bytes, ingressPort := port, ingressSet := true, eth := { p.eth with valid := false },
    arp := { p.arp with valid := false }, sr := { p.sr with len := 0 }, ipv4 := { p.ipv4 with valid := false },
    egressValid := false, drop := false, err := .none, outBuf := [], cur := 0, pstate := .start, stage := .parse,
    payloadSet := false, older := [], drawId := draw }

/-! ## The configuration -/

/-- A frame that has been taken in and has not yet made its configuration read keeps a replaced snapshot as one it may still
read (20_memory.md R90). -/
def Pipe.supersede (p : Pipe) (old : Snapshot) : Pipe :=
  match p.stage with
  | .parse => { p with older := old :: p.older }
  | .decide => { p with older := old :: p.older }
  | .idle => p
  | .csum => p
  | .deparse => p
  | .done => p

/-- Publish a new configuration in one atomic step, `cfg <- cfg'` (20_memory.md R89). -/
def publish (s : State) (c : Snapshot) : State :=
  { s with cfg := c, pipe := s.pipe.supersede s.cfg, parked := s.parked.map fun p => p.supersede s.cfg }

/-- The one snapshot the active instance's frame reads: any of those current between its ingress and now, by the frame's draw
(20_memory.md R90). Where nothing was published meanwhile there is only the current one. -/
def State.snapshot (s : State) : Snapshot :=
  match s.pipe.older with
  | [] => s.cfg
  | o :: os => ((s.cfg :: o :: os)[Config.snapshotDraw s.pipe.drawId % (os.length + 2)]?).getD s.cfg

end Sys2Proof.Machine
end

