-- ==== Sys2Proof/Machine/Checksum.lean ====
section
/-! DEFINITION. The IPv4 header checksum (45_checksum.md R331, R332). -/

namespace Sys2Proof.Machine

/-- The big-endian 16-bit words of a byte sequence (45_checksum.md R331). -/
def wordsOf : List Byte → List Nat
  | hi :: lo :: rest => (hi.toNat * 256 + lo.toNat) :: wordsOf rest
  | _ => []

/-- The end-around carry loop, run at most `fuel` times (45_checksum.md R331: at most twice for ten words). -/
def foldCarry : Nat → Nat → Nat
  | 0, x => x
  | fuel + 1, x => if x > 0xFFFF then foldCarry fuel (x % 0x10000 + x / 0x10000) else x

/-- CSUM_COMPUTE of header bytes, the checksum word taken as 0 (45_checksum.md R331). -/
def checksumOf (bs : List Byte) : Half := ~~~ BitVec.ofNat 16 (foldCarry 2 ((wordsOf bs).set 5 0).sum)

/-- CSUM_COMPUTE of a header register, over the 20 bytes ENC_IPV4 would emit (45_checksum.md R331, R334). -/
def checksumIpv4 (i : Ipv4) : Half := checksumOf (ipv4Bytes i)

/-- CSUM_UPDATE (45_checksum.md R332). -/
def doCsumUpdate (s : State) : Flow :=
  withVal (readIpv4 s) fun i => .go (setIpv4 s { i with checksum := checksumIpv4 i })

/-- CSUM_UPDATE (45_checksum.md R332). -/
def execCsumUpdate (s : State) : Host.Outcome State Fault Refusal := (doCsumUpdate s).outcome
/-- CSUM_COMPUTE (45_checksum.md R331). -/
def execCsumCompute (s : State) : Host.Outcome State Fault Refusal :=
  (withVal (readIpv4 s) fun i => .go (setRet s (.checksum (checksumIpv4 i)))).outcome

end Sys2Proof.Machine
end

