-- ==== Sys2Proof/Machine/Flags.lean ====
section
/-! DEFINITION. The block's flags: the drop condition, LocalAddressSet membership, the prefix match, and the three select keys
formed from the valid and decision flags (10_state.md R46, 30_encoding.md R120 to R122). -/

namespace Sys2Proof.Machine

/-- DROPPED of 46_deparser.md R350, the drop condition of R358. -/
def dropped (p : Pipe) : Bool := decide (p.err ≠ .none) || p.drop || !p.egressValid

/-- Membership of an address in a LocalAddressSet (42_decision.md R243, 10_state.md R50). -/
def lasContains (las : Vector LasEntry 3) (a : Ip) : Bool := las.toList.any fun e => e.valid && decide (e.addr = a)

/-- `mask(L)`: the top `L` bits 1 (44_lpm.md R301). -/
def prefixMask (l : Nat) : Ip := if l = 0 then 0#32 else 0xFFFFFFFF#32 <<< (32 - l)

/-- An entry matches an address when it is valid and the masked values agree (44_lpm.md R301). -/
def FtEntry.hits (e : FtEntry) (a : Ip) : Bool :=
  e.valid && decide (a &&& prefixMask e.plen.toNat = e.pfx &&& prefixMask e.plen.toNat)

/-- The matching entry with the largest prefix length; the first of them where a table broke R303 (44_lpm.md R302). -/
def longestMatch (a : Ip) : List FtEntry → Option FtEntry
  | [] => none
  | e :: es =>
    if e.hits a then
      match longestMatch a es with
      | none => some e
      | some f => if e.plen.toNat < f.plen.toNat then some f else some e
    else longestMatch a es

/-- LPM_LOOKUP's result: the port and next hop, or a miss (44_lpm.md R302). -/
def lookupRoute (ft : List FtEntry) (a : Ip) : Option Route :=
  (longestMatch a ft).map fun e => { port := e.port, mac := e.mac }

/-- The parser select key (30_encoding.md R120). -/
def pskKey (full : Bool) (p : PState) (disc : Half) : BitVec 20 := BitVec.ofBool full ++ p.code ++ disc

/-- PSK[19]: the stack is full (30_encoding.md R120). -/
def srFull (p : Pipe) : Bool := decide (p.sr.len = Config.srCapacity)

/-- The decision select key of its parts (30_encoding.md R121). -/
def dskKey (ty : Half) (arpValid srNonempty ipv4Valid request inLas hit : Bool) : BitVec 24 :=
  ty ++ BitVec.ofBool arpValid ++ BitVec.ofBool srNonempty ++ BitVec.ofBool ipv4Valid ++ BitVec.ofBool request
    ++ BitVec.ofBool inLas ++ BitVec.ofBool hit ++ 0#2

/-- The decision select key of a state, its bits 3 and 2 evaluated only where R121 says so (30_encoding.md R121). -/
def formDsk (s : State) : Except Fault (BitVec 24) :=
  match readEth s with
  | .error f => .error f
  | .ok eth =>
    let p := s.pipe
    let request := p.arp.valid && decide (p.arp.oper = Config.operRequest)
    let inLas := decide (eth.etype = Config.etherArp) && request && lasContains s.snapshot.las p.arp.tpa
    let hit := decide (eth.etype = Config.etherIpv4) && p.ipv4.valid && (lookupRoute s.snapshot.ft p.ipv4.dst).isSome
    .ok (dskKey eth.etype p.arp.valid (decide (0 < p.sr.len)) p.ipv4.valid request inLas hit)

/-- The valid-vector key (30_encoding.md R122). -/
def formVk (p : Pipe) : BitVec 4 :=
  BitVec.ofBool p.eth.valid ++ BitVec.ofBool p.arp.valid ++ BitVec.ofBool (decide (0 < p.sr.len))
    ++ BitVec.ofBool p.ipv4.valid

end Sys2Proof.Machine
end

