-- ==== Sys2Proof/Machine/SourceRoute.lean ====
section
/-! DEFINITION. TTL_DEC and the source-route stack processor (42_decision.md R251, 43_source_route.md R281, R282). -/

namespace Sys2Proof.Machine

/-- TTL_DEC (42_decision.md R251). -/
def doTtlDec (s : State) : Flow :=
  withVal (readIpv4 s) fun i =>
    if s.params.ttlZeroDrop = true ∧ i.ttl.toNat ≤ 1 then raiseDrop s .ttlExpired
    else .go (setIpv4 s { i with ttl := i.ttl - 1#8 })

/-- The entry registers after the ascending shift of SR_POP from a stack of `n`: entries 0 to n-2 take the next one's value,
the rest keep theirs (43_source_route.md R282). -/
def shiftEntries (n : Nat) (e : Vector SrEntry 10) : Vector SrEntry 10 :=
  Vector.ofFn fun i => if i.val + 1 < n then (e[i.val + 1]?).getD e[i] else e[i]

/-- SR_POP (43_source_route.md R282); an empty or over-long stack has no such entries (R283). -/
def doSrPop (s : State) : Flow :=
  if 1 ≤ s.pipe.sr.len ∧ s.pipe.sr.len ≤ Config.srCapacity then
    .go (setSr s { len := s.pipe.sr.len - 1, e := shiftEntries s.pipe.sr.len s.pipe.sr.e })
  else .stop .srIndex

/-- The rewrite of the type tag after the last entry was popped (43_source_route.md R281). -/
def retagIfLast (e : SrEntry) (s : State) : State :=
  if e.bos then setEth s { s.pipe.eth with etype := Config.etherIpv4 } else s

/-- SR_HOP (43_source_route.md R281): the front entry is captured before the pop. -/
def doSrHop (s : State) : Flow :=
  withVal (readEntry s 0) fun e =>
    (doSrPop s).andThen fun t =>
      let t := retagIfLast e (setEgress t (egressPortOf e))
      if t.pipe.ipv4.valid then doTtlDec t else .go t

/-- TTL_DEC (42_decision.md R251). -/
def execTtlDec (s : State) : Host.Outcome State Fault Refusal := (doTtlDec s).outcome
/-- SR_POP (43_source_route.md R282). -/
def execSrPop (s : State) : Host.Outcome State Fault Refusal := (doSrPop s).outcome
/-- SR_HOP (43_source_route.md R281). -/
def execSrHop (s : State) : Host.Outcome State Fault Refusal := (doSrHop s).outcome

end Sys2Proof.Machine
end

