-- ==== Sys2Proof/Machine/Lpm.lean ====
section
/-! DEFINITION. The longest-prefix-match lookup and the IPv4 forwarding path (44_lpm.md R300 to R308). -/

namespace Sys2Proof.Machine

/-- LPM_LOOKUP of an address in the frame's snapshot (44_lpm.md R302, R305). -/
def lpmLookup (s : State) (a : Ip) : Option Route := lookupRoute s.snapshot.ft a

/-- IPV4_FWD_HIT (44_lpm.md R306). The lookup is the one that set DSK[2]; where it misses there is no port to forward to. -/
def doIpv4FwdHit (s : State) : Flow :=
  withVal (readIpv4 s) fun i =>
    match lpmLookup s i.dst with
    | none => .stop .noRoute
    | some r =>
      let t := setEgress s r.port
      doTtlDec (setEth t { t.pipe.eth with dst := r.mac })

/-- IPV4_FWD_MISS (44_lpm.md R307). -/
def doIpv4FwdMiss (s : State) : Flow := raiseDrop s .noMatch

/-- LPM_LOOKUP (44_lpm.md R302). -/
def execLpmLookup (a : Ip) (s : State) : Host.Outcome State Fault Refusal := .next (setRet s (.lookup (lpmLookup s a)))
/-- IPV4_FWD_HIT (44_lpm.md R306). -/
def execIpv4FwdHit (s : State) : Host.Outcome State Fault Refusal := (doIpv4FwdHit s).outcome
/-- IPV4_FWD_MISS (44_lpm.md R307). -/
def execIpv4FwdMiss (s : State) : Host.Outcome State Fault Refusal := (doIpv4FwdMiss s).outcome

end Sys2Proof.Machine
end

