-- ==== Sys2Proof/Machine/Decision.lean ====
section
/-! DEFINITION. The decision dispatch, the address-resolution path and the fallback (42_decision.md R240 to R248). -/

namespace Sys2Proof.Machine

/-- LAS_MEMBER of an address in the frame's snapshot (42_decision.md R243). -/
def lasMember (s : State) (a : Ip) : Bool := lasContains s.snapshot.las a

/-- The fields of an ArpMessage turned into a reply: both address pairs swapped (42_decision.md R246). -/
def replyArp (a : Arp) : Arp :=
  { a with oper := Config.operReply, sha := a.tha, tha := a.sha, spa := a.tpa, tpa := a.spa }

/-- The Ethernet header of a reply: back to the old source, from the request's target hardware address (42_decision.md R246). -/
def replyEth (e : Eth) (a : Arp) : Eth := { e with dst := e.src, src := a.tha }

/-- ARP_REPLY (42_decision.md R246): every old value is read before the first write (R247). -/
def doArpReply (s : State) : Flow :=
  withVal (readEth s) fun e =>
    withVal (readArp s) fun a =>
      withVal (readIngressPort s) fun port =>
        .go (setEgress (setArp (setEth s (replyEth e a)) (replyArp a)) port)

/-- ARP_NONLOCAL (42_decision.md R244). -/
def doArpNonlocal (s : State) : Flow := .go (setEgress s Config.noPort)

/-- ARP_NOACTION (42_decision.md R245). -/
def doArpNoaction (s : State) : Flow := raiseDrop s .noAction

/-- FALLBACK_DROP (42_decision.md R248). -/
def doFallbackDrop (s : State) : Flow := raiseDrop s .unhandledType

/-- The operation of a `dsk` row. -/
def runDskRow (r : DskRow) (s : State) : Flow :=
  match r with
  | .arpReply => doArpReply s
  | .arpNonlocal => doArpNonlocal s
  | .arpNoaction => doArpNoaction s
  | .srHop => doSrHop s
  | .ipv4FwdHit => doIpv4FwdHit s
  | .ipv4FwdMiss => doIpv4FwdMiss s
  | .fallbackDrop => doFallbackDrop s

/-- DISPATCH (42_decision.md R241): form the key and run the operation of the first row it matches. -/
def doDispatch (s : State) : Flow :=
  withVal (formDsk s) fun k =>
    match firstRow (dskRows s.params) k with
    | some r => runDskRow r s
    | none => .stop .noSelectRow

/-- DISPATCH (42_decision.md R241). -/
def execDispatch (s : State) : Host.Outcome State Fault Refusal := (doDispatch s).outcome
/-- LAS_MEMBER (42_decision.md R243). -/
def execLasMember (a : Ip) (s : State) : Host.Outcome State Fault Refusal := .next (setRet s (.member (lasMember s a)))
/-- ARP_REPLY (42_decision.md R246). -/
def execArpReply (s : State) : Host.Outcome State Fault Refusal := (doArpReply s).outcome
/-- ARP_NONLOCAL (42_decision.md R244). -/
def execArpNonlocal (s : State) : Host.Outcome State Fault Refusal := (doArpNonlocal s).outcome
/-- ARP_NOACTION (42_decision.md R245). -/
def execArpNoaction (s : State) : Host.Outcome State Fault Refusal := (doArpNoaction s).outcome
/-- FALLBACK_DROP (42_decision.md R248). -/
def execFallbackDrop (s : State) : Host.Outcome State Fault Refusal := (doFallbackDrop s).outcome

end Sys2Proof.Machine
end

