-- ==== Sys2Proof/Machine/Codec.lean ====
section
/-! DEFINITION. The header codec: DEC_* and ENC_* (40_codec.md R160 to R169). A `do…` definition says what an operation does,
for the operations that call it; the `exec…` definition is the operation run by itself. -/

namespace Sys2Proof.Machine

/-- The decode contract (40_codec.md R160): with fewer than `n` bytes left raise TruncatedHeader and write nothing, else read
the `n` bytes at the cursor, hand them over and advance the cursor by `n`. -/
def decodeHeader (s : State) (n : Nat) (k : State → BitVec (8 * n) → Flow) : Flow :=
  if s.pipe.inBuf.size - s.pipe.cur < n then raiseParseError s .truncatedHeader
  else withVal (memRead s.pipe.inBuf s.pipe.cur n) fun h => k (setCur s (s.pipe.cur + n)) h

/-- DEC_ETH (40_codec.md R161). -/
def doDecEth (s : State) : Flow := decodeHeader s 14 fun s h => .go (setEth s (unpackEth h))

/-- DEC_ARP (40_codec.md R162). -/
def doDecArp (s : State) : Flow := decodeHeader s 28 fun s h => .go (setArp s (unpackArp h))

/-- DEC_SR (40_codec.md R163): append the entry at index `hdr.sr.len`. The precondition `hdr.sr.len < SR_CAPACITY` is the
caller's; without it there is no entry register to write (43_source_route.md R283). -/
def doDecSr (s : State) : Flow :=
  decodeHeader s 2 fun s h =>
    if s.pipe.sr.len < Config.srCapacity then
      .go (setSr s { len := s.pipe.sr.len + 1, e := s.pipe.sr.e.setIfInBounds s.pipe.sr.len (unpackSr h) })
    else .stop .srIndex

/-- DEC_IPV4 (40_codec.md R164). -/
def doDecIpv4 (s : State) : Flow := decodeHeader s 20 fun s h => .go (setIpv4 s (unpackIpv4 h))

/-- ENC_ETH (40_codec.md R166). -/
def doEncEth (s : State) : Flow := withVal (readEth s) fun e => .go (emit s (ethBytes e))

/-- ENC_ARP (40_codec.md R167). -/
def doEncArp (s : State) : Flow := withVal (readArp s) fun a => .go (emit s (arpBytes a))

/-- ENC_SR of entry `i` (40_codec.md R168). -/
def doEncSr (i : Nat) (s : State) : Flow := withVal (readEntry s i) fun e => .go (emit s (srBytes e))

/-- ENC_IPV4 (40_codec.md R169). -/
def doEncIpv4 (s : State) : Flow := withVal (readIpv4 s) fun i => .go (emit s (ipv4Bytes i))

/-- DEC_ETH (40_codec.md R161). -/
def execDecEth (s : State) : Host.Outcome State Fault Refusal := (doDecEth s).outcome
/-- DEC_ARP (40_codec.md R162). -/
def execDecArp (s : State) : Host.Outcome State Fault Refusal := (doDecArp s).outcome
/-- DEC_SR (40_codec.md R163). -/
def execDecSr (s : State) : Host.Outcome State Fault Refusal := (doDecSr s).outcome
/-- DEC_IPV4 (40_codec.md R164). -/
def execDecIpv4 (s : State) : Host.Outcome State Fault Refusal := (doDecIpv4 s).outcome
/-- ENC_ETH (40_codec.md R166). -/
def execEncEth (s : State) : Host.Outcome State Fault Refusal := (doEncEth s).outcome
/-- ENC_ARP (40_codec.md R167). -/
def execEncArp (s : State) : Host.Outcome State Fault Refusal := (doEncArp s).outcome
/-- ENC_SR (40_codec.md R168). -/
def execEncSr (i : BitVec 4) (s : State) : Host.Outcome State Fault Refusal := (doEncSr i.toNat s).outcome
/-- ENC_IPV4 (40_codec.md R169). -/
def execEncIpv4 (s : State) : Host.Outcome State Fault Refusal := (doEncIpv4 s).outcome

end Sys2Proof.Machine
end

