-- ==== Sys2Proof/Machine/Deparser.lean ====
section
/-! DEFINITION. The serializer and the egress verdict (46_deparser.md R350 to R358). -/

namespace Sys2Proof.Machine

/-- EMIT_ETH (46_deparser.md R351). -/
def doEmitEth (s : State) : Flow := doEncEth s

/-- EMIT_ARP (46_deparser.md R352). -/
def doEmitArp (s : State) : Flow := doEncArp s

/-- EMIT_SR of entry `i` (46_deparser.md R353). -/
def doEmitSr (i : Nat) (s : State) : Flow := doEncSr i s

/-- EMIT_IPV4 (46_deparser.md R354). -/
def doEmitIpv4 (s : State) : Flow := doEncIpv4 s

/-- EMIT_PAYLOAD (46_deparser.md R356). -/
def doEmitPayload (s : State) : Flow :=
  withVal (readPayloadOff s) fun off =>
    match readBytes s.pipe.inBuf off (s.pipe.inBuf.size - off) with
    | some bs => .go (emit s bs)
    | none => .stop .memReadPastEnd

/-- EMIT_SR for the `k` entries from `i` on, in ascending order (46_deparser.md R353). -/
def doEmitEntries (s : State) (i : Nat) : Nat → Flow
  | 0 => .go s
  | k + 1 => (doEmitSr i s).andThen fun t => doEmitEntries t (i + 1) k

/-- The emissions of a frame that is not dropped, in canonical order (46_deparser.md R350). -/
def doEmitAll (s : State) : Flow :=
  (((if s.pipe.eth.valid then doEmitEth s else .go s).andThen fun t =>
      if t.pipe.arp.valid then doEmitArp t else .go t).andThen fun t =>
        doEmitEntries t 0 t.pipe.sr.len).andThen fun t =>
          (if t.pipe.ipv4.valid then doEmitIpv4 t else .go t).andThen doEmitPayload

/-- DEPARSE (46_deparser.md R350). -/
def doDeparse (s : State) : Flow :=
  (if dropped s.pipe then .go s else doEmitAll s).andThen fun t => .go (setStage t .done)

/-- EGRESS_VERDICT: the egress result of a frame (46_deparser.md R358). -/
def egressResult (s : State) : Except Fault EgressResult :=
  if dropped s.pipe then .ok { verdict := .drop, port := none, bytes := [], cause := s.pipe.err }
  else
    match readEgressPort s with
    | .error f => .error f
    | .ok port =>
      .ok
        { verdict := if port = Config.noPort then .sentinel else .forward, port := some port,
          bytes := contents s.pipe.outBuf, cause := .none }

/-- DEPARSE (46_deparser.md R350). -/
def execDeparse (s : State) : Host.Outcome State Fault Refusal := (doDeparse s).outcome
/-- EMIT_ETH (46_deparser.md R351). -/
def execEmitEth (s : State) : Host.Outcome State Fault Refusal := (doEmitEth s).outcome
/-- EMIT_ARP (46_deparser.md R352). -/
def execEmitArp (s : State) : Host.Outcome State Fault Refusal := (doEmitArp s).outcome
/-- EMIT_SR (46_deparser.md R353). -/
def execEmitSr (i : BitVec 4) (s : State) : Host.Outcome State Fault Refusal := (doEmitSr i.toNat s).outcome
/-- EMIT_IPV4 (46_deparser.md R354). -/
def execEmitIpv4 (s : State) : Host.Outcome State Fault Refusal := (doEmitIpv4 s).outcome
/-- EMIT_PAYLOAD (46_deparser.md R356). -/
def execEmitPayload (s : State) : Host.Outcome State Fault Refusal := (doEmitPayload s).outcome
/-- EGRESS_VERDICT (46_deparser.md R358). -/
def execEgressVerdict (s : State) : Host.Outcome State Fault Refusal :=
  (withVal (egressResult s) fun r => .go (setRet s (.verdict r))).outcome

end Sys2Proof.Machine
end

