-- ==== Sys2Proof/Machine/HostCalls.lean ====
section
/-! DEFINITION. The host's calls: the transport's INGRESS and EGRESS, the control plane's FT_INSTALL and LAS_CONFIGURE
(20_memory.md R92 to R96), and block reset (70_reset_and_hazards.md R400). -/

namespace Sys2Proof.Machine

/-- INGRESS (20_memory.md R95): enabled in IDLE only, refused for the sentinel port and for a frame longer than
`MAX_FRAME_LEN`. -/
def execIngress (bytes : List Byte) (port : Port) (s : State) : Host.Outcome State Fault Refusal :=
  if s.pipe.stage ≠ .idle then .refused .ingressNotIdle
  else if port = Config.noPort then .refused .ingressNoPort
  else if (s.params.maxFrameLen.map fun m => decide (m < bytes.length)) = some true then .refused .frameTooLong
  else .next { s with pipe := startFrame s.pipe bytes port s.draws, draws := s.draws + 1 }

/-- EGRESS (20_memory.md R96): enabled in DONE only; the transport takes the result and the instance is IDLE. -/
def execEgress (s : State) : Host.Outcome State Fault Refusal :=
  if s.pipe.stage ≠ .done then .refused .egressNotDone
  else
    match egressResult s with
    | .error f => .fault f
    | .ok r => .next { setStage s .idle with delivered := s.delivered ++ [r] }

/-- The key of an entry (20_memory.md R92). -/
def ftKey (pfx : Ip) (plen : BitVec 6) : Ip × BitVec 6 := (pfx &&& prefixMask plen.toNat, plen)

/-- Entry `e` is valid and has this key (20_memory.md R92). -/
def hasKey (k : Ip × BitVec 6) (e : FtEntry) : Bool := e.valid && decide (ftKey e.pfx e.plen = k)

/-- Put an entry into the first free register: the first listed entry with valid 0, else the next unlisted index below 1024;
`none` when all are valid (20_memory.md R92; which free register is taken cannot be observed, 10_state.md R49, log entry 5). -/
def putFree (new : FtEntry) : Nat → List FtEntry → Option (List FtEntry)
  | room, [] => if 0 < room then some [new] else none
  | room, e :: es =>
    if e.valid then (putFree new (room - 1) es).map fun t => e :: t else some (new :: es)

/-- FT_INSTALL's new table, or `none` when it is refused (20_memory.md R92). -/
def installRoute (ft : List FtEntry) (pfx : Ip) (plen : BitVec 8) (port : Port) (mac : Mac) : Option (List FtEntry) :=
  if plen.toNat > 32 ∨ port = Config.noPort then none
  else
    let l := plen.setWidth 6
    if ft.any (hasKey (ftKey pfx l)) then
      some (ft.map fun e => if hasKey (ftKey pfx l) e then { e with port := port, mac := mac } else e)
    else putFree { valid := true, pfx := pfx, plen := l, port := port, mac := mac } Config.ftCapacity ft

/-- FT_INSTALL (20_memory.md R92): publish the new table; a refused call changes nothing but the answer it gets. -/
def execFtInstall (pfx : Ip) (plen : BitVec 8) (port : Port) (mac : Mac) (s : State) :
    Host.Outcome State Fault Refusal :=
  match installRoute s.cfg.ft pfx plen port mac with
  | none => .next (setRet s (.installed false))
  | some ft => .next (setRet (publish s { s.cfg with ft := ft }) (.installed true))

/-- One entry register of LocalAddressSet from an address that may be absent (20_memory.md R93). -/
def lasEntry (a : Option Ip) (old : LasEntry) : LasEntry :=
  match a with
  | some x => { valid := true, addr := x }
  | none => { old with valid := false }

/-- LAS_CONFIGURE (20_memory.md R93): replace the whole set and publish. -/
def execLasConfigure (a0 a1 a2 : Option Ip) (s : State) : Host.Outcome State Fault Refusal :=
  .next (publish s { s.cfg with las := #v[lasEntry a0 s.cfg.las[0], lasEntry a1 s.cfg.las[1], lasEntry a2 s.cfg.las[2]] })

/-- Block reset: every pipeline instance, and not the configuration (70_reset_and_hazards.md R400, R401). A frame in an
instance is discarded without a result (R404). -/
def blockReset (s : State) : State := { s with pipe := resetPipe s.pipe, parked := s.parked.map resetPipe }

end Sys2Proof.Machine
end

