-- ==== Sys2Proof/Machine/Parser.lean ====
section
/-! DEFINITION. The packet-header parser: its state operations and its transitions (41_parser.md R200 to R213). -/

namespace Sys2Proof.Machine

/-- P_START_SEL_ARP (41_parser.md R207). -/
def doPStartSelArp (s : State) : Flow := .go (setPState s .parseArp)

/-- P_START_SEL_SR (41_parser.md R208). -/
def doPStartSelSr (s : State) : Flow := .go (setPState s .parseSr)

/-- P_START_SEL_IPV4 (41_parser.md R209). -/
def doPStartSelIpv4 (s : State) : Flow := .go (setPState s .parseIpv4)

/-- P_START_SEL_OTHER (41_parser.md R210). -/
def doPStartSelOther (s : State) : Flow := .go (setPState s .accept)

/-- P_SR_SEL_BOS1 (41_parser.md R211). -/
def doPSrSelBos1 (s : State) : Flow := .go (setPState s .parseIpv4)

/-- P_SR_SEL_BOS0 (41_parser.md R212). -/
def doPSrSelBos0 (s : State) : Flow := .go (setPState s .parseSr)

/-- P_SR_OVERFLOW (41_parser.md R213). -/
def doPSrOverflow (s : State) : Flow := raiseParseError s .sourceRouteOverflow

/-- The operation of a `psk-select` row. -/
def runSelRow (r : SelRow) (s : State) : Flow :=
  match r with
  | .startArp => doPStartSelArp s
  | .startSr => doPStartSelSr s
  | .startIpv4 => doPStartSelIpv4 s
  | .startOther => doPStartSelOther s
  | .srOverflow => doPSrOverflow s
  | .srBos1 => doPSrSelBos1 s
  | .srBos0 => doPSrSelBos0 s

/-- The first `psk-select` row a key matches, run (30_encoding.md R120). -/
def selectNext (key : BitVec 20) (s : State) : Flow :=
  match firstRow (pskSelectRows s.params) key with
  | some r => runSelRow r s
  | none => .stop .noSelectRow

/-- P_START (41_parser.md R201): decode the Ethernet header, then branch on its type tag. -/
def doPStart (s : State) : Flow :=
  (doDecEth s).andThen fun t =>
    withVal (readEth t) fun eth => selectNext (pskKey (srFull s.pipe) .start eth.etype) t

/-- P_ARP (41_parser.md R202). -/
def doPArp (s : State) : Flow := (doDecArp s).andThen fun t => .go (setPState t .accept)

/-- P_SR (41_parser.md R203): the capacity check before any read, then decode, append, and loop or leave. The capacity bit of
the key is the one sampled at the start of the step. -/
def doPSr (s : State) : Flow :=
  if srFull s.pipe then doPSrOverflow s
  else
    (doDecSr s).andThen fun t =>
      withVal (readEntry t (t.pipe.sr.len - 1)) fun e => selectNext (pskKey (srFull s.pipe) .parseSr (packSr e)) t

/-- P_IPV4 (41_parser.md R204). -/
def doPIpv4 (s : State) : Flow := (doDecIpv4 s).andThen fun t => .go (setPState t .accept)

/-- P_ACCEPT (41_parser.md R205). -/
def doPAccept (s : State) : Flow :=
  .go (s.setPipe { s.pipe with payloadOff := s.pipe.cur, payloadSet := true, stage := .decide })

/-- P_START (41_parser.md R201). -/
def execPStart (s : State) : Host.Outcome State Fault Refusal := (doPStart s).outcome
/-- P_START_SEL_ARP (41_parser.md R207). -/
def execPStartSelArp (s : State) : Host.Outcome State Fault Refusal := (doPStartSelArp s).outcome
/-- P_START_SEL_SR (41_parser.md R208). -/
def execPStartSelSr (s : State) : Host.Outcome State Fault Refusal := (doPStartSelSr s).outcome
/-- P_START_SEL_IPV4 (41_parser.md R209). -/
def execPStartSelIpv4 (s : State) : Host.Outcome State Fault Refusal := (doPStartSelIpv4 s).outcome
/-- P_START_SEL_OTHER (41_parser.md R210). -/
def execPStartSelOther (s : State) : Host.Outcome State Fault Refusal := (doPStartSelOther s).outcome
/-- P_ARP (41_parser.md R202). -/
def execPArp (s : State) : Host.Outcome State Fault Refusal := (doPArp s).outcome
/-- P_SR (41_parser.md R203). -/
def execPSr (s : State) : Host.Outcome State Fault Refusal := (doPSr s).outcome
/-- P_SR_OVERFLOW (41_parser.md R213). -/
def execPSrOverflow (s : State) : Host.Outcome State Fault Refusal := (doPSrOverflow s).outcome
/-- P_SR_SEL_BOS1 (41_parser.md R211). -/
def execPSrSelBos1 (s : State) : Host.Outcome State Fault Refusal := (doPSrSelBos1 s).outcome
/-- P_SR_SEL_BOS0 (41_parser.md R212). -/
def execPSrSelBos0 (s : State) : Host.Outcome State Fault Refusal := (doPSrSelBos0 s).outcome
/-- P_IPV4 (41_parser.md R204). -/
def execPIpv4 (s : State) : Host.Outcome State Fault Refusal := (doPIpv4 s).outcome
/-- P_ACCEPT (41_parser.md R205). -/
def execPAccept (s : State) : Host.Outcome State Fault Refusal := (doPAccept s).outcome

end Sys2Proof.Machine
end

