-- ==== Sys2Proof/Machine/Dispatch.lean ====
section
/-! DEFINITION. The dispatch: one arm per operation of spec/opcode_table.json. -/

namespace Sys2Proof.Machine

def exec (i : Instr) (s : State) : Host.Outcome State Fault Refusal :=
  match i with
  | .pStart => Sys2Proof.Machine.execPStart s
  | .pStartSelArp => Sys2Proof.Machine.execPStartSelArp s
  | .pStartSelSr => Sys2Proof.Machine.execPStartSelSr s
  | .pStartSelIpv4 => Sys2Proof.Machine.execPStartSelIpv4 s
  | .pStartSelOther => Sys2Proof.Machine.execPStartSelOther s
  | .pArp => Sys2Proof.Machine.execPArp s
  | .pSr => Sys2Proof.Machine.execPSr s
  | .pSrOverflow => Sys2Proof.Machine.execPSrOverflow s
  | .pSrSelBos1 => Sys2Proof.Machine.execPSrSelBos1 s
  | .pSrSelBos0 => Sys2Proof.Machine.execPSrSelBos0 s
  | .pIpv4 => Sys2Proof.Machine.execPIpv4 s
  | .pAccept => Sys2Proof.Machine.execPAccept s
  | .decEth => Sys2Proof.Machine.execDecEth s
  | .decArp => Sys2Proof.Machine.execDecArp s
  | .decSr => Sys2Proof.Machine.execDecSr s
  | .decIpv4 => Sys2Proof.Machine.execDecIpv4 s
  | .arpReply => Sys2Proof.Machine.execArpReply s
  | .arpNonlocal => Sys2Proof.Machine.execArpNonlocal s
  | .arpNoaction => Sys2Proof.Machine.execArpNoaction s
  | .srHop => Sys2Proof.Machine.execSrHop s
  | .ipv4FwdHit => Sys2Proof.Machine.execIpv4FwdHit s
  | .ipv4FwdMiss => Sys2Proof.Machine.execIpv4FwdMiss s
  | .fallbackDrop => Sys2Proof.Machine.execFallbackDrop s
  | .dispatch => Sys2Proof.Machine.execDispatch s
  | .lasMember a => Sys2Proof.Machine.execLasMember a s
  | .lpmLookup a => Sys2Proof.Machine.execLpmLookup a s
  | .srPop => Sys2Proof.Machine.execSrPop s
  | .ttlDec => Sys2Proof.Machine.execTtlDec s
  | .csumUpdate => Sys2Proof.Machine.execCsumUpdate s
  | .csumCompute => Sys2Proof.Machine.execCsumCompute s
  | .deparse => Sys2Proof.Machine.execDeparse s
  | .emitEth => Sys2Proof.Machine.execEmitEth s
  | .emitArp => Sys2Proof.Machine.execEmitArp s
  | .emitSr j => Sys2Proof.Machine.execEmitSr j s
  | .emitIpv4 => Sys2Proof.Machine.execEmitIpv4 s
  | .emitPayload => Sys2Proof.Machine.execEmitPayload s
  | .egressVerdict => Sys2Proof.Machine.execEgressVerdict s
  | .encEth => Sys2Proof.Machine.execEncEth s
  | .encArp => Sys2Proof.Machine.execEncArp s
  | .encSr j => Sys2Proof.Machine.execEncSr j s
  | .encIpv4 => Sys2Proof.Machine.execEncIpv4 s
  | .ingress bytes port => Sys2Proof.Machine.execIngress bytes port s
  | .egress => Sys2Proof.Machine.execEgress s
  | .ftInstall pfx plen port mac => Sys2Proof.Machine.execFtInstall pfx plen port mac s
  | .lasConfigure a0 a1 a2 => Sys2Proof.Machine.execLasConfigure a0 a1 a2 s

end Sys2Proof.Machine
end

