-- ==== Sys2Proof/Machine/Fetch.lean ====
section
/-! DEFINITION. Where the next operation comes from: the operation word a pipeline instance forms from its stage and its
select key (10_state.md R31, 30_encoding.md R120 to R122), whose turn it is, and how one given word is made the next. -/

namespace Sys2Proof.Machine

/-- What an instance's next step would run. -/
inductive Fetched where
  /-- the operation word of its next operation -/
  | word (w : List Byte)
  /-- no step is enabled: the instance waits for the transport (20_memory.md R95, R96) -/
  | waiting (r : Refusal)
  /-- its select key cannot be formed -/
  | stop (f : Fault)
  deriving DecidableEq, Repr

/-- The operation word of the active instance's next step. In PARSE the overflow row is tried before the decode, on the
capacity bit; every other parser step is chosen by the parser state alone (30_encoding.md R120, R123). -/
def fetchOwn (s : State) : Fetched :=
  match s.pipe.stage with
  | .idle => .waiting .idle
  | .parse =>
    let key := pskKey (srFull s.pipe) s.pipe.pstate 0#16
    if key &&& 0xF0000#20 = 0xA0000#20 then .word (pskWord fmtPskSelect key) else .word (pskWord fmtPskState key)
  | .decide => match formDsk s with
    | .ok k => .word (dskWord k)
    | .error f => .stop f
  | .csum => .word (vkWord fmtVkCsum (formVk s.pipe))
  | .deparse => .word (vkWord fmtVkDeparse (formVk s.pipe))
  | .done => .waiting .resultHeld

/-- Whose turn it is: the first of the agenda, and the active instance's own where the agenda is empty (log entry 7). -/
def turnOf (s : State) : Turn :=
  match s.agenda with
  | [] => .own
  | t :: _ => t

/-- The state with its first turn taken off the agenda. -/
def popTurn (s : State) : State := { s with agenda := s.agenda.tail }

/-- The list with another value at place `k`. -/
def putAt {α : Type} (l : List α) (k : Nat) (a : α) : List α := l.set k a

/-- Another instance becomes the active one; the one that was goes to its place (00_scope.md R24, 60_exceptions.md R387). -/
def switchPipe (s : State) (k : Nat) : Option State :=
  match s.parked[k]? with
  | some p => some { s with pipe := p, parked := putAt s.parked k s.pipe }
  | none => none

/-! ## Placing an operation where the next step finds it -/

/-- The per-frame state in which the parser's next step forms this key: its parser state, a full or an empty stack, and, where
the state forms a discriminator, the bytes it comes from (30_encoding.md R120). -/
def placePsk (p : Pipe) (k : BitVec 20) : Pipe :=
  match PState.ofCode (k.extractLsb' 16 3) with
  | none => p
  | some st =>
    let disc : List Byte := [k.extractLsb' 8 8, k.extractLsb' 0 8]
    let q : Pipe :=
      { p with stage := .parse, pstate := st, cur := 0, sr := { p.sr with len := if k.getLsbD 19 then 10 else 0 } }
    match st with
    | .start => { q with inBuf := bufferOf (List.replicate 12 0#8 ++ disc) }
    | .parseSr => { q with inBuf := bufferOf disc }
    | .parseArp => q
    | .parseIpv4 => q
    | .accept => q
    | .reject => q

/-- The state in which the decision stage forms this key: its header bits, and a configuration in which the membership test
and the lookup give its bits 3 and 2 (30_encoding.md R121). -/
def placeDsk (s : State) (k : BitVec 24) : State :=
  let p := s.pipe
  let las : Vector LasEntry 3 := if k.getLsbD 3 then #v[⟨true, p.arp.tpa⟩, ⟨false, 0⟩, ⟨false, 0⟩] else lasEmpty
  let ft : List FtEntry := if k.getLsbD 2 then [⟨true, 0, 0, 0, 0⟩] else []
  { s with
    cfg := { ft := ft, las := las },
    pipe :=
      { p with
        stage := .decide, eth := { p.eth with valid := true, etype := k.extractLsb' 8 16 },
        arp := { p.arp with valid := k.getLsbD 7, oper := if k.getLsbD 4 then Config.operRequest else 0 },
        sr := { p.sr with len := if k.getLsbD 6 then 1 else 0 }, ipv4 := { p.ipv4 with valid := k.getLsbD 5 },
        ingressSet := true, older := [] } }

/-- The per-frame state in which the checksum stage or the serializer forms this valid vector, on a frame that is not dropped
(30_encoding.md R122, 46_deparser.md R350). -/
def placeVk (p : Pipe) (g : Stage) (k : BitVec 4) : Pipe :=
  { p with
    stage := g, eth := { p.eth with valid := k.getLsbD 3 }, arp := { p.arp with valid := k.getLsbD 2 },
    sr := { p.sr with len := if k.getLsbD 1 then 1 else 0 }, ipv4 := { p.ipv4 with valid := k.getLsbD 0 },
    egressValid := true, drop := false, err := .none, payloadSet := true }

/-- A state whose next step forms the key of this operation word and runs the operation it selects; a word that is no key's
leaves the state as it is. -/
def placeWord (s : State) : List Byte → State
  | [f, b0, b1, b2] =>
    if f = fmtDsk then placeDsk s (b2 ++ b1 ++ b0)
    else s.setPipe (placePsk s.pipe ((b2 ++ b1 ++ b0).extractLsb' 0 20))
  | f :: b :: _ =>
    if f = fmtVkCsum then s.setPipe (placeVk s.pipe .csum (b.extractLsb' 0 4))
    else if f = fmtVkDeparse ∨ f = fmtVkEmit then s.setPipe (placeVk s.pipe .deparse (b.extractLsb' 0 4))
    else s
  | _ => s

/-- The per-frame state in which the parser's next step decodes this header (41_parser.md R201 to R204). -/
def placeHeader (p : Pipe) (st : PState) (bytes : List Byte) : Pipe :=
  { p with stage := .parse, pstate := st, cur := 0, sr := { p.sr with len := 0 }, inBuf := bufferOf bytes }

/-- The state in which the next step runs the operation that an opcode-table row's bits select: a key is formed, or, where the
bits are a whole header, the parser decodes it (log entry 2). -/
def placeTableWord (s : State) (nbits w : Nat) : State :=
  let t : State := { s with agenda := .own :: s.agenda }
  match nbits with
  | 112 => t.setPipe (placeHeader t.pipe .start (bytesOf 14 (BitVec.ofNat 112 w)))
  | 224 => t.setPipe (placeHeader t.pipe .parseArp (bytesOf 28 (BitVec.ofNat 224 w)))
  | 16 => t.setPipe (placeHeader t.pipe .parseSr (bytesOf 2 (BitVec.ofNat 16 w)))
  | 160 => t.setPipe (placeHeader t.pipe .parseIpv4 (bytesOf 20 (BitVec.ofNat 160 w)))
  | _ => placeWord t (tableWord nbits w)

end Sys2Proof.Machine
end

