-- ==== Sys2Proof/Machine/Turns.lean ====
section
/-! DEFINITION. What one turn does around the operation it runs (10_state.md R31, 42_decision.md R240, 45_checksum.md R330). -/

namespace Sys2Proof.Machine

/-- The stage move after the stage's operation: the decision stage moves to CSUM whatever its operation did, the checksum
stage to DEPARSE; the other stages' operations move the stage themselves (42_decision.md R240, 45_checksum.md R330). -/
def finishStage (g : Stage) (s : State) : State :=
  match g with
  | .decide => setStage s .csum
  | .csum => setStage s .deparse
  | .idle => s
  | .parse => s
  | .deparse => s
  | .done => s

/-- A next state passed on; a stop stays what it is. -/
def onNext (k : State → State) : Host.Outcome State Fault Refusal → Host.Outcome State Fault Refusal
  | .next s => .next (k s)
  | .fault f => .fault f
  | .refused r => .refused r

/-- The active instance's own step: the operation its stage and key select, then the stage move. In CSUM no row matches a
frame without a valid IPv4 header, and the stage does nothing but move on (45_checksum.md R330). -/
def ownStep (s : State) : Host.Outcome State Fault Refusal :=
  match fetchOwn s with
  | .waiting r => .refused r
  | .stop f => .fault f
  | .word w =>
    match decode s.params w with
    | .ok i => onNext (finishStage s.pipe.stage) (exec i s)
    | .error _ => if s.pipe.stage = .csum then .next (finishStage .csum s) else .fault .noSelectRow

/-- A host's call: one of the host's four operations, and no other (20_memory.md R94, 60_exceptions.md R384). -/
def hostStep (w : List Byte) (s : State) : Host.Outcome State Fault Refusal :=
  match decode s.params w with
  | .ok i => if i.isHostCall then exec i s else .refused .notHostCall
  | .error e => .refused (.malformedCall e)

/-- One turn. -/
def takeTurn (t : Turn) (s : State) : Host.Outcome State Fault Refusal :=
  match t with
  | .own => ownStep s
  | .call w => hostStep w s
  | .switchTo k => match switchPipe s k with
    | some u => .next u
    | none => .refused .noSuchInstance
  | .blockReset => .next (blockReset s)

/-- One step: a configuration with two equal EtherType constants is refused (30_encoding.md R118); otherwise the first turn
of the agenda is taken (70_reset_and_hazards.md R415). -/
def stepTurn (s : State) : Host.Outcome State Fault Refusal :=
  if s.params.distinct then takeTurn (turnOf s) (popTurn s) else .refused .equalEtherTypes

end Sys2Proof.Machine
end

