-- ==== Sys2Proof/Machine/Step.lean ====
section
/-! DEFINITION. One step of the machine, and the placing of an operation where the next step finds it. -/

namespace Sys2Proof.Machine

/-- One atomic step of the machine (70_reset_and_hazards.md R415). -/
def step (s : State) : Host.Outcome State Fault Refusal := stepTurn s

/-- `s` with the operation that an opcode-table row's bits select placed where `step` finds its next one (log entry 2). -/
def State.withFetchWord (s : State) (nbits w : Nat) : State := placeTableWord s nbits w

end Sys2Proof.Machine
end

