-- ==== Sys2Proof/Safety.lean ====
section
/-! DEFINITION. The terms the statements use: what a published configuration holds, which header stacks the parser accepts, and
the invariant of the machine: what every state is that a run from power-on reaches. -/

namespace Sys2Proof.Machine

/-- What a forwarding table holds (10_state.md R48, R49; 44_lpm.md R303): at most `FT_CAPACITY` entries, each valid and
within its legal values, and no two with one key. -/
abbrev tableOk (ft : List FtEntry) : Prop :=
  ft.length ≤ Config.ftCapacity
    ∧ (∀ e ∈ ft, e.valid = true ∧ e.plen.toNat ≤ 32 ∧ e.port ≠ Config.noPort)
    ∧ ft.Pairwise fun a b => ftKey a.pfx a.plen ≠ ftKey b.pfx b.plen

/-- The first `n` entries of a stack have the bottom-of-stack flag 0. -/
abbrev openEntries (t : SrStack) (n : Nat) : Prop := ∀ i, i < n → (t.e[i]?).map SrEntry.bos = some false

/-- A whole source-route stack: 1 to 10 entries, the last one and only that with the bottom-of-stack flag 1
(41_parser.md R215). -/
abbrev wholeStack (t : SrStack) : Prop :=
  1 ≤ t.len ∧ t.len ≤ Config.srCapacity ∧ openEntries t (t.len - 1) ∧ (t.e[t.len - 1]?).map SrEntry.bos = some true

/-- The header stacks that the parser accepts, with the cursor after them: the four rows of 41_parser.md R215. -/
abbrev acceptedStack (c : Params) (p : Pipe) : Prop :=
  p.eth.valid = true
    ∧ ((p.eth.etype = Config.etherArp ∧ p.arp.valid = true ∧ p.sr.len = 0 ∧ p.ipv4.valid = false ∧ p.cur = 42)
      ∨ (p.eth.etype = c.srType ∧ p.arp.valid = false ∧ wholeStack p.sr ∧ p.ipv4.valid = true
          ∧ p.cur = 34 + 2 * p.sr.len)
      ∨ (p.eth.etype = Config.etherIpv4 ∧ p.arp.valid = false ∧ p.sr.len = 0 ∧ p.ipv4.valid = true ∧ p.cur = 34)
      ∨ ((p.eth.etype ≠ Config.etherArp ∧ p.eth.etype ≠ c.srType ∧ p.eth.etype ≠ Config.etherIpv4)
          ∧ p.arp.valid = false ∧ p.sr.len = 0 ∧ p.ipv4.valid = false ∧ p.cur = 14))

/-- What the parser has decoded when it is in each of its states (41_parser.md R201 to R213). -/
abbrev parsedSoFar (c : Params) (p : Pipe) : Prop :=
  (p.pstate = .start →
      p.cur = 0 ∧ p.eth.valid = false ∧ p.arp.valid = false ∧ p.sr.len = 0 ∧ p.ipv4.valid = false)
    ∧ (p.pstate = .parseArp →
      p.cur = 14 ∧ p.eth.valid = true ∧ p.eth.etype = Config.etherArp ∧ p.arp.valid = false ∧ p.sr.len = 0
        ∧ p.ipv4.valid = false)
    ∧ (p.pstate = .parseSr →
      p.cur = 14 + 2 * p.sr.len ∧ p.eth.valid = true ∧ p.eth.etype = c.srType ∧ p.arp.valid = false
        ∧ p.sr.len ≤ Config.srCapacity ∧ openEntries p.sr p.sr.len ∧ p.ipv4.valid = false)
    ∧ (p.pstate = .parseIpv4 →
      p.cur = 14 + 2 * p.sr.len ∧ p.eth.valid = true ∧ p.arp.valid = false ∧ p.ipv4.valid = false
        ∧ ((p.eth.etype = Config.etherIpv4 ∧ p.sr.len = 0) ∨ (p.eth.etype = c.srType ∧ wholeStack p.sr)))
    ∧ (p.pstate = .accept → acceptedStack c p)
    ∧ p.pstate ≠ .reject

/-- A frame that no stage has given a verdict: nothing emitted, no egress target, no drop (10_state.md R46, R55). -/
abbrev undecided (p : Pipe) : Prop :=
  p.outBuf = [] ∧ p.egressValid = false ∧ p.drop = false ∧ p.err = .none ∧ p.ingressSet = true
    ∧ p.ingressPort ≠ Config.noPort

/-- A frame that the decision stage has given a verdict: it is dropped with a cause, or it has an egress target and no cause
(10_state.md R44, R45; 60_exceptions.md R378). -/
abbrev decided (p : Pipe) : Prop :=
  (p.drop = true ↔ p.err ≠ .none) ∧ (p.drop = true ∨ p.egressValid = true)

/-- What the serializer needs of a frame it has not yet emitted (41_parser.md R205, 43_source_route.md R284). -/
abbrev readyToEmit (p : Pipe) : Prop :=
  p.eth.valid = true ∧ p.sr.len ≤ Config.srCapacity ∧ p.pstate = .accept ∧ p.payloadSet = true ∧ p.payloadOff = p.cur
    ∧ p.outBuf = []

/-- The invariant of one pipeline instance (10_state.md R31 to R47): its buffers have their canonical form, the cursor is
within the frame, and each stage finds what the stages before it leave. -/
abbrev pipeInv (c : Params) (p : Pipe) : Prop :=
  (p.inBuf.wf ∧ p.outBuf.wf ∧ p.cur ≤ p.inBuf.size ∧ ∀ o ∈ p.older, tableOk o.ft)
    ∧ (p.stage = .parse → undecided p ∧ p.payloadSet = false ∧ parsedSoFar c p)
    ∧ (p.stage = .decide →
      undecided p ∧ p.payloadSet = true ∧ p.payloadOff = p.cur ∧ p.pstate = .accept ∧ acceptedStack c p)
    ∧ (p.stage = .csum → decided p ∧ readyToEmit p)
    ∧ (p.stage = .deparse →
      decided p ∧ readyToEmit p ∧ (p.ipv4.valid = true → p.ipv4.checksum = checksumIpv4 p.ipv4))
    ∧ (p.stage = .done → decided p ∧ (p.drop = true → p.outBuf = []))

/-- The invariant of the machine. -/
abbrev machineInv (s : State) : Prop :=
  s.params.distinct ∧ tableOk s.cfg.ft ∧ pipeInv s.params s.pipe ∧ ∀ p ∈ s.parked, pipeInv s.params p

/-- The next `n` bytes the parser has not consumed: those at the addresses `cur` to `cur + n - 1` (10_state.md R33). -/
abbrev nextBytes (p : Pipe) (n : Nat) : List Byte := ((contents p.inBuf).drop p.cur).take n

/-- What 41_parser.md R206 leaves of a state in which a parser step raised `ParseError`. -/
abbrev afterParseError (s : State) (c : Cause) : State :=
  { s with pipe := { s.pipe with pstate := .reject, err := c, drop := true, stage := .done } }

/-- What 60_exceptions.md R378 leaves of a state in which an operation raised `Drop`. -/
abbrev afterDrop (s : State) (c : Cause) : State := { s with pipe := { s.pipe with err := c, drop := true } }

/-- `OUT` with bytes appended, and nothing else changed (40_codec.md R165). -/
abbrev afterEmit (s : State) (bs : List Byte) : State :=
  { s with pipe := { s.pipe with outBuf := appendBytes s.pipe.outBuf bs } }

/-- The top `l` bits of two addresses agree (44_lpm.md R301). -/
abbrev agreeOnTop (l : Nat) (a b : Ip) : Prop := ∀ j, 32 - l ≤ j → j < 32 → a.getLsbD j = b.getLsbD j

/-- An entry of the table matches an address (44_lpm.md R301). -/
abbrev matchesAddr (e : FtEntry) (a : Ip) : Prop := e.valid = true ∧ agreeOnTop e.plen.toNat a e.pfx

/-- The active instance takes the next step (70_reset_and_hazards.md R415). -/
abbrev ownTurn (s : State) : Prop := turnOf s = .own

/-- The ten 16-bit words of an IPv4 header but its checksum word, summed as integers (45_checksum.md R331). -/
abbrev headerWordSum (i : Ipv4) : Nat :=
  (i.version ++ i.ihl ++ i.tos).toNat + i.totalLen.toNat + i.ident.toNat + (i.flags ++ i.fragOff).toNat
    + (i.ttl ++ i.protocol).toNat + (i.src.extractLsb' 16 16).toNat + (i.src.extractLsb' 0 16).toNat
    + (i.dst.extractLsb' 16 16).toNat + (i.dst.extractLsb' 0 16).toNat

/-- `c` is the ones' complement of the ones'-complement sum of a header's words: `c = 0xFFFF - f` for the one `f` of at most 16
bits that differs from the sum by a multiple of 0xFFFF and is 0 only when the sum is (45_checksum.md R331). -/
abbrev isChecksumOf (c : Half) (i : Ipv4) : Prop :=
  ∃ f, f ≤ 0xFFFF ∧ f % 0xFFFF = headerWordSum i % 0xFFFF ∧ (f = 0 ↔ headerWordSum i = 0) ∧ c.toNat = 0xFFFF - f

/-- The steps of the active instance alone, from a state whose agenda is empty (70_reset_and_hazards.md R415). -/
abbrev runOwn (k : Nat) (s : State) : Host.Outcome State Fault Refusal := Sys2Proof.core.run k s

end Sys2Proof.Machine
end

