-- ==== Sys2Proof/Certificates/Slice0/Obligations.lean ====
section
/-! DEFINITION. The statements for the provers. Each names the rule of spec/ it formalises. A statement of the form
`exec i s = .next { s with … }` is at once the operation's result, its completion and its frame: every field that the record
update does not name is unchanged, every byte of `IN` and `OUT` included. -/

open Sys2Proof Sys2Proof.Machine

/-! ## Encodings and the operation map -/

/-- Decode and encode agree for every operation and every value of its operands, under every parameter set whose EtherTypes are
distinct. The operation word is the model's own (log entry 1); the keys in it are those of 30_encoding.md R123. -/
def Obligations.EveryOperationWordDecodesToItsOperation : Prop :=
  ∀ (p : Params) (i : Instr), p.distinct → i.wellFormed = true → decode p (encode p i) = .ok i

/-- Words written out bit by bit from the match column of 30_encoding.md R123, one or more of each format. The byte that names
the format is the model's own (log entry 1). -/
def Obligations.WrittenOutWordsDecodeToTheirOperations : Prop :=
  decode Params.default [0x00, 0x00, 0x00, 0x04] = .ok .pAccept
    ∧ decode Params.default [0x01, 0x06, 0x08, 0x00] = .ok .pStartSelArp
    ∧ decode Params.default [0x01, 0x34, 0x12, 0x00] = .ok .pStartSelSr
    ∧ decode Params.default [0x01, 0xDD, 0x86, 0x00] = .ok .pStartSelOther
    ∧ decode Params.default [0x01, 0x00, 0x00, 0x0A] = .ok .pSrOverflow
    ∧ decode Params.default [0x01, 0x05, 0x80, 0x02] = .ok .pSrSelBos1
    ∧ decode Params.default [0x03, 0x98, 0x06, 0x08] = .ok .arpReply
    ∧ decode Params.default [0x03, 0x60, 0x34, 0x12] = .ok .srHop
    ∧ decode Params.default [0x03, 0x24, 0x00, 0x08] = .ok .ipv4FwdHit
    ∧ decode Params.default [0x03, 0x00, 0xDD, 0x86] = .ok .fallbackDrop
    ∧ decode Params.default [0x05, 0x09] = .ok .csumUpdate
    ∧ decode Params.default [0x07, 0x02, 0x09] = .ok (.emitSr 9)
    ∧ decode Params.default [0x07, 0x02, 0x0A] = .error .badIndex

/-- 40_codec.md R170 at the level of the codec: every byte string of a header's width, decoded and encoded, is itself again, and
every header register, encoded and decoded, is itself again. -/
def Obligations.HeaderCodecRoundTrips : Prop :=
  (∀ bs : List Byte, bs.length = 14 → ethBytes (unpackEth (bitsOf 14 bs)) = bs)
    ∧ (∀ bs : List Byte, bs.length = 28 → arpBytes (unpackArp (bitsOf 28 bs)) = bs)
    ∧ (∀ bs : List Byte, bs.length = 2 → srBytes (unpackSr (bitsOf 2 bs)) = bs)
    ∧ (∀ bs : List Byte, bs.length = 20 → ipv4Bytes (unpackIpv4 (bitsOf 20 bs)) = bs)
    ∧ (∀ e : Eth, e.valid = true → unpackEth (bitsOf 14 (ethBytes e)) = e)
    ∧ (∀ a : Arp, a.valid = true → unpackArp (bitsOf 28 (arpBytes a)) = a)
    ∧ (∀ e : SrEntry, unpackSr (bitsOf 2 (srBytes e)) = e)
    ∧ (∀ i : Ipv4, i.valid = true → unpackIpv4 (bitsOf 20 (ipv4Bytes i)) = i)

/-! ## The header codec -/

/-- DEC_ETH (40_codec.md R161): the fields are the slices of the next 14 bytes read big-endian. -/
def Obligations.DecEthReadsTheNextFourteenBytes : Prop :=
  ∀ s : State, s.pipe.inBuf.wf →
    (s.pipe.inBuf.size - s.pipe.cur < 14 → exec .decEth s = .next (afterParseError s .truncatedHeader))
    ∧ (14 ≤ s.pipe.inBuf.size - s.pipe.cur →
      let h : BitVec 112 := bitsOf 14 (nextBytes s.pipe 14)
      exec .decEth s = .next
        { s with
          pipe := { s.pipe with
            eth := { valid := true, dst := h.extractLsb' 64 48, src := h.extractLsb' 16 48, etype := h.extractLsb' 0 16 }
            cur := s.pipe.cur + 14 } })

/-- DEC_ARP (40_codec.md R162): the fields are the slices of the next 28 bytes read big-endian. -/
def Obligations.DecArpReadsTheNextTwentyEightBytes : Prop :=
  ∀ s : State, s.pipe.inBuf.wf →
    (s.pipe.inBuf.size - s.pipe.cur < 28 → exec .decArp s = .next (afterParseError s .truncatedHeader))
    ∧ (28 ≤ s.pipe.inBuf.size - s.pipe.cur →
      let h : BitVec 224 := bitsOf 28 (nextBytes s.pipe 28)
      exec .decArp s = .next
        { s with
          pipe := { s.pipe with
            arp := { valid := true, htype := h.extractLsb' 208 16, ptype := h.extractLsb' 192 16,
                     hlen := h.extractLsb' 184 8, plen := h.extractLsb' 176 8, oper := h.extractLsb' 160 16,
                     sha := h.extractLsb' 112 48, spa := h.extractLsb' 80 32, tha := h.extractLsb' 32 48,
                     tpa := h.extractLsb' 0 32 }
            cur := s.pipe.cur + 28 } })

/-- DEC_SR (40_codec.md R163): the entry goes to the register at index `hdr.sr.len`, and the counter goes up by 1; the two
fields are separated as `byte0 >> 7` and `(byte0 & 0x7F) << 8 | byte1`. -/
def Obligations.DecSrAppendsTheNextEntry : Prop :=
  ∀ s : State, s.pipe.inBuf.wf →
    (s.pipe.inBuf.size - s.pipe.cur < 2 → exec .decSr s = .next (afterParseError s .truncatedHeader))
    ∧ ∀ b0 b1 : Byte, nextBytes s.pipe 2 = [b0, b1] → s.pipe.sr.len < 10 →
      exec .decSr s = .next
        { s with
          pipe := { s.pipe with
            sr := { len := s.pipe.sr.len + 1,
                    e := s.pipe.sr.e.setIfInBounds s.pipe.sr.len
                      { bos := decide (b0.toNat / 128 = 1),
                        port := BitVec.ofNat 15 (b0.toNat % 128 * 256 + b1.toNat) } }
            cur := s.pipe.cur + 2 } }

/-- DEC_IPV4 (40_codec.md R164): the fields are the slices of the next 20 bytes read big-endian. -/
def Obligations.DecIpv4ReadsTheNextTwentyBytes : Prop :=
  ∀ s : State, s.pipe.inBuf.wf →
    (s.pipe.inBuf.size - s.pipe.cur < 20 → exec .decIpv4 s = .next (afterParseError s .truncatedHeader))
    ∧ (20 ≤ s.pipe.inBuf.size - s.pipe.cur →
      let h : BitVec 160 := bitsOf 20 (nextBytes s.pipe 20)
      exec .decIpv4 s = .next
        { s with
          pipe := { s.pipe with
            ipv4 := { valid := true, version := h.extractLsb' 156 4, ihl := h.extractLsb' 152 4, tos := h.extractLsb' 144 8,
                      totalLen := h.extractLsb' 128 16, ident := h.extractLsb' 112 16, flags := h.extractLsb' 109 3,
                      fragOff := h.extractLsb' 96 13, ttl := h.extractLsb' 88 8, protocol := h.extractLsb' 80 8,
                      checksum := h.extractLsb' 64 16, src := h.extractLsb' 32 32, dst := h.extractLsb' 0 32 }
            cur := s.pipe.cur + 20 } })

/-- ENC_ETH, ENC_ARP, ENC_IPV4 and the emissions that run them (40_codec.md R166, R167, R169; 46_deparser.md R351, R352, R354):
14, 28 and 20 bytes are appended, field by field, most significant byte first; in the IPv4 header version and header length
share byte 0, flags and fragment offset share bytes 6 and 7. -/
def Obligations.EncodersAndEmissionsAppendTheWireBytes : Prop :=
  ∀ s : State,
    (s.pipe.eth.valid = true →
      let bs := macBytes s.pipe.eth.dst ++ macBytes s.pipe.eth.src ++ portBytes s.pipe.eth.etype
      exec .encEth s = .next (afterEmit s bs) ∧ exec .emitEth s = .next (afterEmit s bs))
    ∧ (s.pipe.arp.valid = true →
      let a := s.pipe.arp
      let bs := portBytes a.htype ++ portBytes a.ptype ++ [a.hlen, a.plen] ++ portBytes a.oper ++ macBytes a.sha
        ++ ipBytes a.spa ++ macBytes a.tha ++ ipBytes a.tpa
      exec .encArp s = .next (afterEmit s bs) ∧ exec .emitArp s = .next (afterEmit s bs))
    ∧ (s.pipe.ipv4.valid = true →
      let i := s.pipe.ipv4
      let bs := [i.version ++ i.ihl, i.tos] ++ portBytes i.totalLen ++ portBytes i.ident
        ++ [i.flags ++ i.fragOff.extractLsb' 8 5, i.fragOff.extractLsb' 0 8, i.ttl, i.protocol] ++ portBytes i.checksum
        ++ ipBytes i.src ++ ipBytes i.dst
      exec .encIpv4 s = .next (afterEmit s bs) ∧ exec .emitIpv4 s = .next (afterEmit s bs))

/-- ENC_SR and EMIT_SR of an entry of the stack (40_codec.md R168, 46_deparser.md R353): byte 0 is `bos << 7 | port >> 8`, byte
1 is `port & 0xFF`. -/
def Obligations.EncSrAndEmitSrAppendTheEntry : Prop :=
  ∀ (s : State) (i : BitVec 4) (e : SrEntry), i.toNat < s.pipe.sr.len → s.pipe.sr.e[i.toNat]? = some e →
    let bs : List Byte :=
      [BitVec.ofNat 8 (e.bos.toNat * 128 + e.port.toNat / 256), BitVec.ofNat 8 (e.port.toNat % 256)]
    exec (.encSr i) s = .next (afterEmit s bs) ∧ exec (.emitSr i) s = .next (afterEmit s bs)

/-- What appending to a buffer does to each of its bytes (20_memory.md R82): every address below the old length reads as
before, the next ones read as the appended bytes, and no other address exists. -/
def Obligations.AppendedBytesReadBackAndOthersStay : Prop :=
  ∀ (m : Memory) (bs : List Byte), m.wf → ∀ a : Nat,
    readByte (appendBytes m bs) a = if a < m.size then readByte m a else bs[a - m.size]?

/-! ## The parser -/

/-- P_START (41_parser.md R201): decode the Ethernet header, then branch on its type tag in the order ARP, source route,
IPv4, other. -/
def Obligations.PStartDecodesAndBranchesOnTheTypeTag : Prop :=
  ∀ s : State, s.pipe.inBuf.wf →
    (s.pipe.inBuf.size - s.pipe.cur < 14 → exec .pStart s = .next (afterParseError s .truncatedHeader))
    ∧ (14 ≤ s.pipe.inBuf.size - s.pipe.cur →
      let h := unpackEth (bitsOf 14 (nextBytes s.pipe 14))
      exec .pStart s = .next
        { s with
          pipe := { s.pipe with
            eth := h
            cur := s.pipe.cur + 14
            pstate :=
              if h.etype = Config.etherArp then .parseArp
              else if h.etype = s.params.srType then .parseSr
              else if h.etype = Config.etherIpv4 then .parseIpv4
              else .accept } })

/-- The transitions of 41_parser.md R207 to R212, run by themselves, write the parser state that the rule names and nothing else.
That they do so in every state, without looking at their select condition, is the model's choice (log entry 11): the condition
chooses the operation (30_encoding.md R120). -/
def Obligations.SelectOperationsWriteOnlyTheParserState : Prop :=
  ∀ s : State,
    exec .pStartSelArp s = .next { s with pipe := { s.pipe with pstate := .parseArp } }
      ∧ exec .pStartSelSr s = .next { s with pipe := { s.pipe with pstate := .parseSr } }
      ∧ exec .pStartSelIpv4 s = .next { s with pipe := { s.pipe with pstate := .parseIpv4 } }
      ∧ exec .pStartSelOther s = .next { s with pipe := { s.pipe with pstate := .accept } }
      ∧ exec .pSrSelBos1 s = .next { s with pipe := { s.pipe with pstate := .parseIpv4 } }
      ∧ exec .pSrSelBos0 s = .next { s with pipe := { s.pipe with pstate := .parseSr } }

/-- P_SR and P_SR_OVERFLOW (41_parser.md R203, R211 to R213): the capacity check comes before any read, and raises the parse
error of R206 with neither the cursor nor the stack changed; otherwise one entry is appended and its
bottom-of-stack flag chooses between leaving and looping. -/
def Obligations.PSrChecksCapacityThenAppendsAndBranches : Prop :=
  ∀ s : State, s.pipe.inBuf.wf →
    exec .pSrOverflow s = .next
      { s with pipe := { s.pipe with pstate := .reject, err := .sourceRouteOverflow, drop := true, stage := .done } }
    ∧ (s.pipe.sr.len = 10 → exec .pSr s = exec .pSrOverflow s)
    ∧ (s.pipe.sr.len < 10 → s.pipe.inBuf.size - s.pipe.cur < 2 →
        exec .pSr s = .next (afterParseError s .truncatedHeader))
    ∧ (s.pipe.sr.len < 10 → 2 ≤ s.pipe.inBuf.size - s.pipe.cur →
      let e := unpackSr (bitsOf 2 (nextBytes s.pipe 2))
      exec .pSr s = .next
        { s with
          pipe := { s.pipe with
            sr := { len := s.pipe.sr.len + 1, e := s.pipe.sr.e.setIfInBounds s.pipe.sr.len e }
            cur := s.pipe.cur + 2
            pstate := if e.bos then .parseIpv4 else .parseSr } })

/-- P_ARP and P_IPV4 (41_parser.md R202, R204): decode the one header and accept. -/
def Obligations.PArpAndPIpv4DecodeAndAccept : Prop :=
  ∀ s : State, s.pipe.inBuf.wf →
    (s.pipe.inBuf.size - s.pipe.cur < 28 → exec .pArp s = .next (afterParseError s .truncatedHeader))
    ∧ (28 ≤ s.pipe.inBuf.size - s.pipe.cur →
      exec .pArp s = .next
        { s with
          pipe := { s.pipe with
            arp := unpackArp (bitsOf 28 (nextBytes s.pipe 28)), cur := s.pipe.cur + 28, pstate := .accept } })
    ∧ (s.pipe.inBuf.size - s.pipe.cur < 20 → exec .pIpv4 s = .next (afterParseError s .truncatedHeader))
    ∧ (20 ≤ s.pipe.inBuf.size - s.pipe.cur →
      exec .pIpv4 s = .next
        { s with
          pipe := { s.pipe with
            ipv4 := unpackIpv4 (bitsOf 20 (nextBytes s.pipe 20)), cur := s.pipe.cur + 20, pstate := .accept } })

/-- P_ACCEPT (41_parser.md R205): `meta.payload_off <- cur`, `stage <- DECIDE`. -/
def Obligations.PAcceptRecordsThePayloadOffset : Prop :=
  ∀ s : State, exec .pAccept s = .next
    { s with pipe := { s.pipe with payloadOff := s.pipe.cur, payloadSet := true, stage := .decide } }

/-- Every frame leaves PARSE within 13 steps (41_parser.md R214). -/
def Obligations.EveryFrameLeavesTheParserWithinThirteenSteps : Prop :=
  ∀ s : State, machineInv s → s.agenda = [] → s.pipe.stage = .parse →
    ∃ k t, k ≤ 13 ∧ runOwn k s = .next t ∧ (t.pipe.stage = .decide ∨ t.pipe.stage = .done)

/-- The four accepted header stacks and no other (41_parser.md R215): what a step that moves a frame from PARSE to DECIDE
leaves. -/
def Obligations.AcceptedFramesHaveOneOfFourHeaderStacks : Prop :=
  ∀ s t : State, machineInv s → s.pipe.stage = .parse → ownTurn s → step s = .next t → t.pipe.stage = .decide →
    acceptedStack t.params t.pipe ∧ t.pipe.payloadOff = t.pipe.cur ∧ t.pipe.cur ≤ 54

/-- The parser reads no configuration (41_parser.md R217): with any other forwarding table and local address set its step does
the same. -/
def Obligations.ParserStepsDoNotDependOnTheConfiguration : Prop :=
  ∀ (s : State) (c : Snapshot), s.pipe.stage = .parse → ownTurn s →
    step { s with cfg := c } = onNext (fun t => { t with cfg := c }) (step s)

/-! ## The decision stage -/

/-- DISPATCH (42_decision.md R240, R241): exactly one path, chosen in the order address resolution, source-route hop, IPv4,
fallback; and in the decision stage it completes. -/
def Obligations.DispatchRunsTheFirstPathWhoseConditionHolds : Prop :=
  ∀ s : State, s.params.distinct → s.pipe.eth.valid = true →
    (machineInv s → s.pipe.stage = .decide → ∃ t, exec .dispatch s = .next t)
    ∧ exec .dispatch s =
      if s.pipe.eth.etype = Config.etherArp ∧ s.pipe.arp.valid = true then
        if s.pipe.arp.oper = 1#16 then
          if ∃ j : Fin 3, s.snapshot.las[j].valid = true ∧ s.snapshot.las[j].addr = s.pipe.arp.tpa then exec .arpReply s
          else exec .arpNonlocal s
        else exec .arpNoaction s
      else if s.pipe.eth.etype = s.params.srType ∧ 0 < s.pipe.sr.len then exec .srHop s
      else if s.pipe.eth.etype = Config.etherIpv4 ∧ s.pipe.ipv4.valid = true then
        if (lookupRoute s.snapshot.ft s.pipe.ipv4.dst).isSome then exec .ipv4FwdHit s else exec .ipv4FwdMiss s
      else exec .fallbackDrop s

/-- ARP_REPLY (42_decision.md R246, R247): every new value is an old one, none is read after it was written. -/
def Obligations.ArpReplySwapsTheAddressPairs : Prop :=
  ∀ s : State, s.pipe.eth.valid = true → s.pipe.arp.valid = true → s.pipe.ingressSet = true →
    exec .arpReply s = .next
      { s with
        pipe := { s.pipe with
          eth := { s.pipe.eth with dst := s.pipe.eth.src, src := s.pipe.arp.tha }
          arp := { s.pipe.arp with
            oper := 2#16, sha := s.pipe.arp.tha, spa := s.pipe.arp.tpa, tha := s.pipe.arp.sha, tpa := s.pipe.arp.spa }
          egressValid := true
          egressPort := s.pipe.ingressPort } }

/-- ARP_NONLOCAL (42_decision.md R244): the sentinel target, no header changed. -/
def Obligations.ArpNonlocalTargetsTheSentinel : Prop :=
  ∀ s : State, exec .arpNonlocal s = .next { s with pipe := { s.pipe with egressValid := true, egressPort := 0xFFFF#16 } }

/-- ARP_NOACTION, IPV4_FWD_MISS and FALLBACK_DROP (42_decision.md R245, R248; 44_lpm.md R307): a decision drop with the
operation's cause, no header changed and no egress target set (60_exceptions.md R378). -/
def Obligations.DropOperationsRecordTheirCauseOnly : Prop :=
  ∀ s : State,
    exec .arpNoaction s = .next { s with pipe := { s.pipe with err := .noAction, drop := true } }
      ∧ exec .ipv4FwdMiss s = .next { s with pipe := { s.pipe with err := .noMatch, drop := true } }
      ∧ exec .fallbackDrop s = .next { s with pipe := { s.pipe with err := .unhandledType, drop := true } }

/-- LAS_MEMBER (42_decision.md R243): some valid entry of the frame's snapshot holds the whole address. The answer is seen in the
model's latch `ret` (log entry 6). -/
def Obligations.LasMemberTestsTheValidEntries : Prop :=
  ∀ (s : State) (a : Ip),
    ∃ b, exec (.lasMember a) s = .next { s with ret := .member b }
      ∧ (b = true ↔ ∃ j : Fin 3, s.snapshot.las[j].valid = true ∧ s.snapshot.las[j].addr = a)

/-- TTL_DEC (42_decision.md R251): with `TTL_ZERO_DROP` a TTL of 0 or 1 drops the frame and is not written; otherwise the TTL
goes down by 1 modulo 256. -/
def Obligations.TtlDecDecrementsOrDrops : Prop :=
  ∀ s : State, s.pipe.ipv4.valid = true →
    (s.params.ttlZeroDrop = true → s.pipe.ipv4.ttl.toNat ≤ 1 → exec .ttlDec s = .next (afterDrop s .ttlExpired))
    ∧ (s.params.ttlZeroDrop = false ∨ 1 < s.pipe.ipv4.ttl.toNat →
      exec .ttlDec s = .next
        { s with
          pipe := { s.pipe with
            ipv4 := { s.pipe.ipv4 with ttl := BitVec.ofNat 8 ((s.pipe.ipv4.ttl.toNat + 255) % 256) } } })

/-- The decision stage runs DISPATCH once and then moves to CSUM, whatever the operation did (42_decision.md R240). -/
def Obligations.DecisionStageRunsDispatchOnceThenMovesToCsum : Prop :=
  ∀ s : State, s.params.distinct → s.pipe.stage = .decide → s.pipe.eth.valid = true → ownTurn s →
    step s = onNext (fun t => { t with pipe := { t.pipe with stage := .csum } }) (exec .dispatch (popTurn s))

/-- Only ARP_NONLOCAL gives a frame the sentinel target (46_deparser.md R358, 30_encoding.md R127). -/
def Obligations.OnlyNonlocalRequestsGetTheSentinelTarget : Prop :=
  ∀ s t : State, machineInv s → s.pipe.stage = .decide → ownTurn s → step s = .next t →
    t.pipe.egressValid = true → t.pipe.egressPort = Config.noPort →
      s.pipe.eth.etype = Config.etherArp ∧ s.pipe.arp.valid = true ∧ s.pipe.arp.oper = 1#16
        ∧ ¬ ∃ j : Fin 3, s.snapshot.las[j].valid = true ∧ s.snapshot.las[j].addr = s.pipe.arp.tpa

/-! ## The source-route stack processor -/

/-- SR_POP (43_source_route.md R282): entries move forward by one place, the counter goes down by 1, and the registers at and
past the new length are not written. The entry at the new length holds no value any more; that its register keeps what it held is
the model's choice (log entry 4). -/
def Obligations.SrPopShiftsTheEntriesForward : Prop :=
  ∀ s : State, 1 ≤ s.pipe.sr.len → s.pipe.sr.len ≤ 10 →
    ∃ t : SrStack, exec .srPop s = .next { s with pipe := { s.pipe with sr := t } }
      ∧ t.len = s.pipe.sr.len - 1
      ∧ (∀ i, i < t.len → t.e[i]? = s.pipe.sr.e[i + 1]?)
      ∧ ∀ i, t.len ≤ i → t.e[i]? = s.pipe.sr.e[i]?

/-- SR_HOP (43_source_route.md R281): after the pop, the target is the captured front entry's port zero-extended, the type tag
becomes IPv4 when that entry was the last, and a valid IPv4 header's TTL is decremented or the frame dropped. -/
def Obligations.SrHopForwardsToTheFrontEntry : Prop :=
  ∀ (s : State) (e : SrEntry), 1 ≤ s.pipe.sr.len → s.pipe.sr.len ≤ 10 → s.pipe.sr.e[0]? = some e →
    ∃ t : SrStack, exec .srPop s = .next { s with pipe := { s.pipe with sr := t } }
      ∧ (let expired := s.pipe.ipv4.valid && s.params.ttlZeroDrop && decide (s.pipe.ipv4.ttl.toNat ≤ 1)
         exec .srHop s = .next
          { s with
            pipe := { s.pipe with
              sr := t
              egressValid := true
              egressPort := BitVec.ofNat 16 e.port.toNat
              eth := { s.pipe.eth with etype := if e.bos then Config.etherIpv4 else s.pipe.eth.etype }
              ipv4 := { s.pipe.ipv4 with
                ttl := if s.pipe.ipv4.valid && !expired then s.pipe.ipv4.ttl - 1#8 else s.pipe.ipv4.ttl }
              err := if expired then .ttlExpired else s.pipe.err
              drop := expired || s.pipe.drop } })

/-- One hop on an accepted source-route frame of N entries that does not expire (43_source_route.md R284, R285): N - 1 entries
are left, the target is the popped entry's port, the type tag becomes IPv4 exactly when the popped flag was 1, which is when N
was 1, the TTL goes down once; and what is left is again an accepted frame (41_parser.md R215), with N - 1 entries and the type
tag unchanged for N of at least 2, with no entry and the IPv4 tag for N = 1. The cursor in it is the one the next parser, which
reads the shorter frame anew, would have. -/
def Obligations.OneHopLeavesAnAcceptedFrameWithOneEntryLess : Prop :=
  ∀ (s : State) (e : SrEntry), s.params.distinct → acceptedStack s.params s.pipe → s.pipe.eth.etype = s.params.srType →
    s.pipe.sr.e[0]? = some e → (s.params.ttlZeroDrop = false ∨ 1 < s.pipe.ipv4.ttl.toNat) →
      ∃ t, exec .srHop s = .next t
        ∧ t.pipe.sr.len = s.pipe.sr.len - 1
        ∧ t.pipe.egressValid = true ∧ t.pipe.egressPort.toNat = e.port.toNat
        ∧ t.pipe.drop = s.pipe.drop
        ∧ (t.pipe.eth.etype = Config.etherIpv4 ↔ e.bos = true)
        ∧ (e.bos = true ↔ s.pipe.sr.len = 1)
        ∧ t.pipe.eth.valid = true ∧ t.pipe.arp.valid = false ∧ t.pipe.ipv4.valid = true
        ∧ t.pipe.ipv4.ttl = s.pipe.ipv4.ttl - 1#8
        ∧ (2 ≤ s.pipe.sr.len → t.pipe.eth.etype = s.params.srType ∧ wholeStack t.pipe.sr)
        ∧ (s.pipe.sr.len = 1 → t.pipe.sr.len = 0)
        ∧ acceptedStack s.params { t.pipe with cur := 34 + 2 * t.pipe.sr.len }

/-! ## The lookup engine -/

/-- LPM_LOOKUP (44_lpm.md R301, R302): a miss exactly when no entry matches; otherwise the port and next hop of a matching
entry with the largest prefix length; and the lookup changes nothing but the model's latch `ret` (log entry 6). -/
def Obligations.LpmLookupReturnsALongestMatchingEntry : Prop :=
  ∀ (s : State) (a : Ip),
    ∃ r, exec (.lpmLookup a) s = .next { s with ret := .lookup r }
      ∧ (r = none ↔ ∀ e ∈ s.snapshot.ft, ¬ matchesAddr e a)
      ∧ ∀ q, r = some q → ∃ e ∈ s.snapshot.ft, matchesAddr e a ∧ q.port = e.port ∧ q.mac = e.mac
          ∧ ∀ f ∈ s.snapshot.ft, matchesAddr f a → f.plen.toNat ≤ e.plen.toNat

/-- The result of a lookup does not depend on the order of the entries in the table (44_lpm.md R302, R303; 10_state.md R49). -/
def Obligations.LookupDoesNotDependOnTheOrderOfEntries : Prop :=
  ∀ (ft gt : List FtEntry) (a : Ip), tableOk ft → ft.Perm gt → lookupRoute gt a = lookupRoute ft a

/-- IPV4_FWD_HIT (44_lpm.md R306, R308): the matched port and next hop, then TTL_DEC; the Ethernet source and type tag are not
written. -/
def Obligations.Ipv4FwdHitForwardsToTheMatchedEntry : Prop :=
  ∀ (s : State) (r : Route), s.pipe.ipv4.valid = true → lookupRoute s.snapshot.ft s.pipe.ipv4.dst = some r →
    let expired := s.params.ttlZeroDrop && decide (s.pipe.ipv4.ttl.toNat ≤ 1)
    exec .ipv4FwdHit s = .next
      { s with
        pipe := { s.pipe with
          egressValid := true
          egressPort := r.port
          eth := { s.pipe.eth with dst := r.mac }
          ipv4 := { s.pipe.ipv4 with ttl := if expired then s.pipe.ipv4.ttl else s.pipe.ipv4.ttl - 1#8 }
          err := if expired then .ttlExpired else s.pipe.err
          drop := expired || s.pipe.drop } }

/-- The snapshot a frame reads is one that was current at some instant since its ingress, and where nothing was published
meanwhile it is the current one (20_memory.md R90). Which of several it is, is a free value (log entry 3); the statement holds
for every value of it. -/
def Obligations.FrameReadsASnapshotCurrentSinceItsIngress : Prop :=
  ∀ s : State, s.snapshot ∈ s.cfg :: s.pipe.older ∧ (s.pipe.older = [] → s.snapshot = s.cfg)

/-! ## The checksum updater -/

/-- CSUM_COMPUTE and CSUM_UPDATE (45_checksum.md R331, R332): the value computed, and stored, is the ones' complement of the
ones'-complement sum of the header's ten words, the checksum word taken as zero; nothing else changes. The computed value is seen
in the model's latch `ret` (log entry 6). -/
def Obligations.ChecksumIsComputedAndStored : Prop :=
  ∀ s : State, s.pipe.ipv4.valid = true →
    ∃ c, isChecksumOf c s.pipe.ipv4
      ∧ exec .csumCompute s = .next { s with ret := .checksum c }
      ∧ exec .csumUpdate s = .next { s with pipe := { s.pipe with ipv4 := { s.pipe.ipv4 with checksum := c } } }

/-- The checksum stage (45_checksum.md R330): CSUM_UPDATE when the IPv4 header is valid, dropped or not; nothing otherwise;
then DEPARSE. -/
def Obligations.ChecksumStageUpdatesAValidHeaderAndMovesOn : Prop :=
  ∀ s : State, s.params.distinct → s.pipe.stage = .csum → ownTurn s →
    step s =
      if s.pipe.ipv4.valid then onNext (fun t => { t with pipe := { t.pipe with stage := .deparse } }) (exec .csumUpdate (popTurn s))
      else .next { popTurn s with pipe := { s.pipe with stage := .deparse } }

/-! ## The serializer and the egress result -/

/-- DEPARSE (46_deparser.md R350): nothing for a dropped frame; otherwise the valid headers in canonical order, the entries of
the stack in ascending order, and the payload; then DONE. -/
def Obligations.DeparseEmitsTheValidHeadersInCanonicalOrder : Prop :=
  ∀ s : State, s.pipe.inBuf.wf → s.pipe.payloadSet = true → s.pipe.sr.len ≤ 10 →
    exec .deparse s = .next
      { s with
        pipe := { s.pipe with
          stage := .done
          outBuf :=
            if s.pipe.err ≠ .none ∨ s.pipe.drop = true ∨ s.pipe.egressValid = false then s.pipe.outBuf
            else appendBytes s.pipe.outBuf
              ((if s.pipe.eth.valid then ethBytes s.pipe.eth else [])
                ++ (if s.pipe.arp.valid then arpBytes s.pipe.arp else [])
                ++ (s.pipe.sr.e.toList.take s.pipe.sr.len).flatMap srBytes
                ++ (if s.pipe.ipv4.valid then ipv4Bytes s.pipe.ipv4 else [])
                ++ (contents s.pipe.inBuf).drop s.pipe.payloadOff) } }

/-- EMIT_PAYLOAD (46_deparser.md R356): the bytes of `IN` from the payload offset to its end are appended unchanged. -/
def Obligations.EmitPayloadCopiesTheRestOfTheFrame : Prop :=
  ∀ s : State, s.pipe.inBuf.wf → s.pipe.payloadSet = true →
    exec .emitPayload s = .next (afterEmit s ((contents s.pipe.inBuf).drop s.pipe.payloadOff))

/-- EGRESS_VERDICT (46_deparser.md R358), and EGRESS (20_memory.md R96), which hands that result to the transport in DONE and
puts the instance in IDLE; EGRESS is not enabled in any other stage. `ret` and `delivered` are where the model shows a returned
value (log entry 6). -/
def Obligations.EgressHandsOverTheVerdict : Prop :=
  ∀ s : State,
    ∃ r : EgressResult, exec .egressVerdict s = .next { s with ret := .verdict r }
      ∧ r =
        (if s.pipe.err ≠ .none ∨ s.pipe.drop = true ∨ s.pipe.egressValid = false then
          { verdict := .drop, port := none, bytes := [], cause := s.pipe.err }
        else if s.pipe.egressPort = Config.noPort then
          { verdict := .sentinel, port := some Config.noPort, bytes := contents s.pipe.outBuf, cause := .none }
        else { verdict := .forward, port := some s.pipe.egressPort, bytes := contents s.pipe.outBuf, cause := .none })
      ∧ (s.pipe.stage = .done →
        exec .egress s = .next
          { s with pipe := { s.pipe with stage := .idle }, delivered := s.delivered ++ [r] })
      ∧ (s.pipe.stage ≠ .done → exec .egress s = .refused .egressNotDone)

/-! ## The host's calls -/

/-- INGRESS (20_memory.md R80, R95, 70_reset_and_hazards.md R402): on an IDLE instance, with a real port and a frame within
`MAX_FRAME_LEN`, the per-frame initialisation, `IN` holding exactly the frame; refused otherwise. `draws`, `drawId`, `older` and
the flags `ingressSet` and `payloadSet` are the model's own (log entries 3 and 4), and the refusal of a frame that is too long
is too (log entry 12). -/
def Obligations.IngressStartsAFrameOrIsRefused : Prop :=
  ∀ (s : State) (bytes : List Byte) (port : Port),
    (s.pipe.stage = .idle → port ≠ Config.noPort → (∀ m, s.params.maxFrameLen = some m → bytes.length ≤ m) →
      ∃ buf : Memory, buf.wf ∧ contents buf = bytes
        ∧ exec (.ingress bytes port) s = .next
          { s with
            draws := s.draws + 1
            pipe := { s.pipe with
              inBuf := buf, ingressPort := port, ingressSet := true
              eth := { s.pipe.eth with valid := false }, arp := { s.pipe.arp with valid := false }
              sr := { s.pipe.sr with len := 0 }, ipv4 := { s.pipe.ipv4 with valid := false }
              egressValid := false, drop := false, err := .none, outBuf := [], cur := 0, pstate := .start
              stage := .parse, payloadSet := false, older := [], drawId := s.draws } })
    ∧ (s.pipe.stage ≠ .idle → exec (.ingress bytes port) s = .refused .ingressNotIdle)
    ∧ (s.pipe.stage = .idle → port = Config.noPort → exec (.ingress bytes port) s = .refused .ingressNoPort)
    ∧ (s.pipe.stage = .idle → port ≠ Config.noPort → (∃ m, s.params.maxFrameLen = some m ∧ m < bytes.length) →
        exec (.ingress bytes port) s = .refused .frameTooLong)

/-- FT_INSTALL (20_memory.md R92): refused with nothing changed for an illegal length, the sentinel port, or a new key in a
full table; an entry with the same key has its port and next hop replaced; a new key goes into a free register. That the free
register is the next of the list is the model's choice (log entry 5), and so is the answer in the latch `ret` (log entries 6 and
10); `publish` keeps the replaced snapshot for frames in flight in the model's list `older` (log entry 3). -/
def Obligations.FtInstallReplacesOrAddsOrRefuses : Prop :=
  ∀ (s : State) (pfx : Ip) (plen : BitVec 8) (port : Port) (mac : Mac), tableOk s.cfg.ft →
    let key := ftKey pfx (BitVec.ofNat 6 plen.toNat)
    let known := ∃ e ∈ s.cfg.ft, ftKey e.pfx e.plen = key
    let refused := 32 < plen.toNat ∨ port = Config.noPort ∨ (¬ known ∧ s.cfg.ft.length = 1024)
    (refused → exec (.ftInstall pfx plen port mac) s = .next { s with ret := .installed false })
    ∧ (¬ refused → ∃ gt : List FtEntry,
        exec (.ftInstall pfx plen port mac) s = .next { publish s { s.cfg with ft := gt } with ret := .installed true }
        ∧ tableOk gt
        ∧ (known → gt = s.cfg.ft.map fun e =>
            if ftKey e.pfx e.plen = key then { e with port := port, mac := mac } else e)
        ∧ (¬ known → gt = s.cfg.ft ++
            [{ valid := true, pfx := pfx, plen := BitVec.ofNat 6 plen.toNat, port := port, mac := mac }]))

/-- What a lookup finds after an accepted FT_INSTALL (20_memory.md R92, 44_lpm.md R302): the new route where its prefix
matches and no longer prefix did, and what it found before everywhere else. -/
def Obligations.InstalledRouteIsFoundWhereNoLongerPrefixMatches : Prop :=
  ∀ (s t : State) (pfx : Ip) (plen : BitVec 8) (port : Port) (mac : Mac) (a : Ip), tableOk s.cfg.ft →
    exec (.ftInstall pfx plen port mac) s = .next t → t.ret = .installed true →
      lookupRoute t.cfg.ft a =
        if agreeOnTop plen.toNat a pfx ∧ (∀ e ∈ s.cfg.ft, matchesAddr e a → e.plen.toNat ≤ plen.toNat) then
          some { port := port, mac := mac }
        else lookupRoute s.cfg.ft a

/-- LAS_CONFIGURE (20_memory.md R93): the set becomes exactly the given addresses, published in one step, and an absent address
leaves its entry with valid 0; the forwarding table is not changed. That the j-th address is the one of `LAS[j]` is the model's
choice (log entry 15); `publish` keeps the replaced snapshot for frames in flight in the model's list `older` (log entry 3). -/
def Obligations.LasConfigureReplacesTheLocalAddresses : Prop :=
  ∀ (s : State) (a0 a1 a2 : Option Ip),
    ∃ las : Vector LasEntry 3, exec (.lasConfigure a0 a1 a2) s = .next (publish s { s.cfg with las := las })
      ∧ (∀ a : Ip, (∃ j : Fin 3, las[j].valid = true ∧ las[j].addr = a) ↔ some a ∈ [a0, a1, a2])
      ∧ ∀ j : Fin 3,
        match #v[a0, a1, a2][j] with
        | some a => las[j] = { valid := true, addr := a }
        | none => las[j].valid = false

/-- Publishing (20_memory.md R89, R90): the configuration is replaced in one step, and every frame that has come in and not yet
read it, in whatever instance, may still read the old one; nothing else changes. The list `older` is the model's own form of
that (log entry 3). -/
def Obligations.PublishingKeepsTheOldSnapshotForFramesInFlight : Prop :=
  ∀ (s : State) (c : Snapshot),
    (publish s c).cfg = c
      ∧ (publish s c).pipe = { s.pipe with
          older := if s.pipe.stage = .parse ∨ s.pipe.stage = .decide then s.cfg :: s.pipe.older else s.pipe.older }
      ∧ (publish s c).parked = s.parked.map (fun p => { p with
          older := if p.stage = .parse ∨ p.stage = .decide then s.cfg :: p.older else p.older })
      ∧ publish s c = { s with cfg := c, pipe := (publish s c).pipe, parked := (publish s c).parked }

/-- Only the host's four operations can be called by the host (20_memory.md R94, 60_exceptions.md R384). That a call is an
operation word on the agenda is the model's form of it (log entries 1 and 7). -/
def Obligations.HostCallsOfOtherOperationsAreRefused : Prop :=
  ∀ (s : State) (w : List Byte) (i : Instr), s.params.distinct → turnOf s = .call w → decode s.params w = .ok i →
    step s =
      match i with
      | .ingress bytes port => exec (.ingress bytes port) (popTurn s)
      | .egress => exec .egress (popTurn s)
      | .ftInstall pfx plen port mac => exec (.ftInstall pfx plen port mac) (popTurn s)
      | .lasConfigure a0 a1 a2 => exec (.lasConfigure a0 a1 a2) (popTurn s)
      | _ => .refused .notHostCall

/-- Block reset (70_reset_and_hazards.md R400, R401, R404): every instance gets the values of 10_state.md R55's first column,
whatever stage it was in; the configuration, the parameters and the results already taken stay as they were. The flags
`ingressSet` and `payloadSet`, the draw counter and the agenda are the model's own (log entries 3, 4 and 7). -/
def Obligations.BlockResetIdlesEveryInstanceAndKeepsTheConfiguration : Prop :=
  ∀ s : State, s.params.distinct → turnOf s = .blockReset →
    ∃ t, step s = .next t ∧ t.cfg = s.cfg ∧ t.params = s.params ∧ t.delivered = s.delivered ∧ t.ret = s.ret
      ∧ t.draws = s.draws ∧ t.agenda = s.agenda.tail ∧ t.parked.length = s.parked.length
      ∧ ∀ p ∈ t.pipe :: t.parked,
        p.stage = .idle ∧ p.pstate = .start ∧ p.cur = 0 ∧ p.eth.valid = false ∧ p.arp.valid = false ∧ p.sr.len = 0
          ∧ p.ipv4.valid = false ∧ p.egressValid = false ∧ p.drop = false ∧ p.err = .none ∧ p.inBuf = [] ∧ p.outBuf = []
          ∧ p.ingressSet = false ∧ p.payloadSet = false

/-! ## The step -/

/-- A step runs the decoded operation: in the active instance's turn the operation its stage and key select, with the stage
move of 42_decision.md R240 and 45_checksum.md R330 after it. That a selection is a word and a turn is data is the model's
form (log entries 1 and 7). -/
def Obligations.StepRunsTheOperationItsKeySelects : Prop :=
  ∀ (s : State) (w : List Byte) (i : Instr), s.params.distinct → ownTurn s → fetchOwn (popTurn s) = .word w →
    decode s.params w = .ok i →
      step s = onNext (fun t =>
        if s.pipe.stage = .decide then { t with pipe := { t.pipe with stage := .csum } }
        else if s.pipe.stage = .csum then { t with pipe := { t.pipe with stage := .deparse } }
        else t) (exec i (popTurn s))

/-- Which operation a parser or serializer step runs (30_encoding.md R120, R123; 41_parser.md R200; 46_deparser.md R350): it
follows from the parser state, and in PARSE_SR from whether the stack is full. -/
def Obligations.StageAndParserStateSelectTheOperation : Prop :=
  ∀ s : State, s.params.distinct → ownTurn s →
    (s.pipe.stage = .parse → s.pipe.pstate = .start → step s = exec .pStart (popTurn s))
      ∧ (s.pipe.stage = .parse → s.pipe.pstate = .parseArp → step s = exec .pArp (popTurn s))
      ∧ (s.pipe.stage = .parse → s.pipe.pstate = .parseSr → s.pipe.sr.len ≠ 10 → step s = exec .pSr (popTurn s))
      ∧ (s.pipe.stage = .parse → s.pipe.pstate = .parseSr → s.pipe.sr.len = 10 → step s = exec .pSrOverflow (popTurn s))
      ∧ (s.pipe.stage = .parse → s.pipe.pstate = .parseIpv4 → step s = exec .pIpv4 (popTurn s))
      ∧ (s.pipe.stage = .parse → s.pipe.pstate = .accept → step s = exec .pAccept (popTurn s))
      ∧ (s.pipe.stage = .deparse → step s = exec .deparse (popTurn s))
      ∧ (s.pipe.stage = .idle → step s = .refused .idle)
      ∧ (s.pipe.stage = .done → step s = .refused .resultHeld)

/-- A configuration with two equal EtherType constants is refused (30_encoding.md R118, 60_exceptions.md R391). -/
def Obligations.EqualEtherTypesAreRefused : Prop :=
  ∀ s : State, s.params.srType = 0x0800#16 ∨ s.params.srType = 0x0806#16 → step s = .refused .equalEtherTypes

/-- The strict order of the stages (10_state.md R31, 70_reset_and_hazards.md R408). -/
def Obligations.StagesFollowEachOtherInStrictOrder : Prop :=
  ∀ s t : State, ownTurn s → step s = .next t →
    (s.pipe.stage = .parse ∧ (t.pipe.stage = .parse ∨ t.pipe.stage = .decide ∨ (t.pipe.stage = .done ∧ t.pipe.pstate = .reject)))
      ∨ (s.pipe.stage = .decide ∧ t.pipe.stage = .csum)
      ∨ (s.pipe.stage = .csum ∧ t.pipe.stage = .deparse)
      ∨ (s.pipe.stage = .deparse ∧ t.pipe.stage = .done)

/-- What no own step of an instance changes: the constants, the configuration, every other instance, the frame and its ingress
port, the results already taken; and the cursor never moves backwards (10_state.md R33, R47, R49, R51; 20_memory.md R88). The
clauses on `draws`, `older` and `drawId` (log entry 3), `ingressSet` (log entry 4), `ret` and `delivered` (log entry 6), `parked`
and `agenda` (log entry 7) are about fields of the model's own form. -/
def Obligations.OwnStepsLeaveEverythingSharedUnchanged : Prop :=
  ∀ s t : State, ownTurn s → step s = .next t →
    t.params = s.params ∧ t.cfg = s.cfg ∧ t.parked = s.parked ∧ t.delivered = s.delivered ∧ t.ret = s.ret
      ∧ t.draws = s.draws ∧ t.agenda = s.agenda.tail ∧ t.pipe.inBuf = s.pipe.inBuf
      ∧ t.pipe.ingressPort = s.pipe.ingressPort ∧ t.pipe.ingressSet = s.pipe.ingressSet
      ∧ t.pipe.older = s.pipe.older ∧ t.pipe.drawId = s.pipe.drawId ∧ s.pipe.cur ≤ t.pipe.cur

/-- Where the causes come from (60_exceptions.md R372, R377): a parser step records only a parse error's cause, a decision step
only a decision drop's, and no other step records one; the drop flag once set stays set, and from a state with the invariant a
cause once recorded stays (10_state.md R44, R45). -/
def Obligations.CausesAreRecordedOnlyByTheirStage : Prop :=
  ∀ s t : State, ownTurn s → step s = .next t →
    (t.pipe.err = s.pipe.err
      ∨ (s.pipe.stage = .parse ∧ (t.pipe.err = .truncatedHeader ∨ t.pipe.err = .sourceRouteOverflow))
      ∨ (s.pipe.stage = .decide
          ∧ (t.pipe.err = .noMatch ∨ t.pipe.err = .unhandledType ∨ t.pipe.err = .noAction ∨ t.pipe.err = .ttlExpired)))
    ∧ (s.pipe.drop = true → t.pipe.drop = true)
    ∧ (machineInv s → s.pipe.err ≠ .none → t.pipe.err = s.pipe.err)

/-! ## Reads that the spec forbids -/

/-- A read of a field of an invalid header, of `meta.ingress_port` while it is unspecified, or of `meta.payload_off` before ACCEPT,
and an access to the source-route stack outside its entries, is a fault (10_state.md R41, R55, 43_source_route.md R283,
60_exceptions.md R391). That the flags `ingressSet` and `payloadSet` say when is the model's form (log entry 4). -/
def Obligations.ReadingWhatHoldsNoValueIsAFault : Prop :=
  ∀ (s : State) (i : BitVec 4),
    (s.pipe.eth.valid = false →
      exec .encEth s = .fault .invalidEth ∧ exec .emitEth s = .fault .invalidEth ∧ exec .dispatch s = .fault .invalidEth
        ∧ exec .arpReply s = .fault .invalidEth)
    ∧ (s.pipe.arp.valid = false →
      exec .encArp s = .fault .invalidArp ∧ exec .emitArp s = .fault .invalidArp
        ∧ (s.pipe.eth.valid = true → exec .arpReply s = .fault .invalidArp))
    ∧ (s.pipe.ipv4.valid = false →
      exec .encIpv4 s = .fault .invalidIpv4 ∧ exec .emitIpv4 s = .fault .invalidIpv4 ∧ exec .ttlDec s = .fault .invalidIpv4
        ∧ exec .csumUpdate s = .fault .invalidIpv4 ∧ exec .csumCompute s = .fault .invalidIpv4
        ∧ exec .ipv4FwdHit s = .fault .invalidIpv4)
    ∧ (s.pipe.sr.len ≤ i.toNat → exec (.encSr i) s = .fault .srIndex ∧ exec (.emitSr i) s = .fault .srIndex)
    ∧ (s.pipe.sr.len = 0 → exec .srPop s = .fault .srIndex ∧ exec .srHop s = .fault .srIndex)
    ∧ (s.pipe.payloadSet = false → exec .emitPayload s = .fault .noPayloadOff)
    ∧ (s.pipe.eth.valid = true → s.pipe.arp.valid = true → s.pipe.ingressSet = false →
      exec .arpReply s = .fault .noIngressPort)

/-! ## Reset and the machine's invariant -/

/-- The state after reset (10_state.md R55, 70_reset_and_hazards.md R400, R401): the values the spec states, for every value of
the OPEN parameters and every number of pipeline instances; the table is empty. -/
def Obligations.PowerOnLeavesTheResetValues : Prop :=
  ∀ (p : Params) (las : Vector LasEntry 3) (others : Nat),
    let s := State.powerOn p las others
    s.params = p ∧ s.cfg = { ft := [], las := las } ∧ s.parked.length = others
      ∧ ∀ q ∈ s.pipe :: s.parked,
        q.stage = .idle ∧ q.pstate = .start ∧ q.cur = 0 ∧ q.eth.valid = false ∧ q.arp.valid = false
          ∧ q.sr.len = 0 ∧ q.ipv4.valid = false ∧ q.egressValid = false ∧ q.drop = false ∧ q.err = .none
          ∧ q.inBuf = [] ∧ q.outBuf = []

/-- The invariant holds at power-on, for every parameter set whose EtherTypes are distinct, and at the model's reset state. -/
def Obligations.InvariantHoldsAtReset : Prop :=
  machineInv State.reset
    ∧ ∀ (p : Params) (las : Vector LasEntry 3) (others : Nat), p.distinct → machineInv (State.powerOn p las others)

/-- Every step keeps the invariant: the buffers' canonical form, the cursor within the frame (10_state.md R33), the table's
legal values and unique keys (R49, 44_lpm.md R303), the header stack the parser has built so far (41_parser.md R215), a verdict
after the decision stage, and a right checksum before the serializer runs (45_checksum.md R333). -/
def Obligations.EveryStepKeepsTheInvariant : Prop :=
  ∀ s t : State, machineInv s → step s = .next t → machineInv t

/-- No step from a state with the invariant ends in a fault: the faults of 60_exceptions.md R391 are ones that a conforming block
never produces. -/
def Obligations.NoStepFromTheInvariantFaults : Prop :=
  ∀ (s : State) (f : Fault), machineInv s → step s ≠ .fault f

/-- Bounded progress (70_reset_and_hazards.md R416): from INGRESS on, an instance reaches DONE in at most 16 of its own
steps. -/
def Obligations.EveryFrameIsDoneWithinSixteenSteps : Prop :=
  ∀ (s t : State) (bytes : List Byte) (port : Port), machineInv s → s.agenda = [] →
    exec (.ingress bytes port) s = .next t →
      ∃ k u, k ≤ 16 ∧ runOwn k t = .next u ∧ u.pipe.stage = .done

/-- No frame's result depends on an earlier frame (70_reset_and_hazards.md R403): two machines with the same constants and
configuration that take in the same frame give the same egress result, whatever their instances did before. -/
def Obligations.ResultsDoNotDependOnEarlierFrames : Prop :=
  ∀ (s t s' t' u : State) (bytes : List Byte) (port : Port) (k : Nat), s.params.distinct →
    s.params = t.params → s.cfg = t.cfg → s.agenda = [] → t.agenda = [] →
    exec (.ingress bytes port) s = .next s' → exec (.ingress bytes port) t = .next t' →
    runOwn k s' = .next u →
      ∃ v, runOwn k t' = .next v ∧ v.pipe.stage = u.pipe.stage
        ∧ (u.pipe.stage = .done → egressResult v = egressResult u)

/-- Round trip at frame level (46_deparser.md R359): an address-resolution request for an address that is not local leaves byte
for byte as it came, with the sentinel verdict (42_decision.md R244), after six steps of its own. -/
def Obligations.NonlocalRequestsLeaveByteForByteUnchanged : Prop :=
  ∀ (s : State) (bytes : List Byte) (port : Port), s.params.distinct → s.agenda = [] → s.pipe.stage = .idle →
    port ≠ Config.noPort → (∀ m, s.params.maxFrameLen = some m → bytes.length ≤ m) → 42 ≤ bytes.length →
    (bytes.drop 12).take 2 = [0x08#8, 0x06#8] → (bytes.drop 20).take 2 = [0x00#8, 0x01#8] →
    (¬ ∃ j : Fin 3, s.cfg.las[j].valid = true ∧ ipBytes s.cfg.las[j].addr = (bytes.drop 38).take 4) →
      ∃ t u, exec (.ingress bytes port) s = .next t ∧ runOwn 6 t = .next u ∧ u.pipe.stage = .done
        ∧ egressResult u
          = .ok { verdict := .sentinel, port := some Config.noPort, bytes := bytes, cause := .none }

/-- A forwarded IPv4 frame end to end (44_lpm.md R306, R308; 45_checksum.md R333; 46_deparser.md R350): it leaves on the matched
port with the matched next hop, its Ethernet source and its type tag as they came, the TTL one less modulo 256, a right checksum,
and every byte after the header unchanged. -/
def Obligations.Ipv4FramesLeaveWithNewDestinationTtlAndChecksum : Prop :=
  ∀ (s : State) (bytes : List Byte) (port : Port) (r : Route), s.params.distinct → s.agenda = [] → s.pipe.stage = .idle →
    port ≠ Config.noPort → (∀ m, s.params.maxFrameLen = some m → bytes.length ≤ m) → 34 ≤ bytes.length →
    (bytes.drop 12).take 2 = [0x08#8, 0x00#8] → tableOk s.cfg.ft →
    (let h := unpackIpv4 (bitsOf 20 ((bytes.drop 14).take 20))
     lookupRoute s.cfg.ft h.dst = some r → (s.params.ttlZeroDrop = false ∨ 1 < h.ttl.toNat) →
      ∃ t u c, exec (.ingress bytes port) s = .next t ∧ runOwn 6 t = .next u ∧ u.pipe.stage = .done
        ∧ isChecksumOf c { h with ttl := h.ttl - 1#8 }
        ∧ egressResult u = .ok
            { verdict := .forward, port := some r.port, cause := .none
              bytes := macBytes r.mac ++ (bytes.drop 6).take 8
                ++ ipv4Bytes { h with ttl := h.ttl - 1#8, checksum := c } ++ bytes.drop 34 })
end

