-- ==== Sys2Proof/Laws/Memory.lean ====
section
/-! SUPPORT. Frame buffers: every operation keeps the canonical form, and what is read is what was laid out. -/

namespace Sys2Proof.Machine

theorem cellsFrom_addresses (a : Nat) (bs : List Byte) : (cellsFrom a bs).map Prod.fst = List.range' a bs.length := by
  induction bs generalizing a with
  | nil => rfl
  | cons b bs ih => simp [cellsFrom, ih, List.range'_succ]

@[simp] theorem cellsFrom_length (a : Nat) (bs : List Byte) : (cellsFrom a bs).length = bs.length := by
  induction bs generalizing a with
  | nil => rfl
  | cons b bs ih => simp [cellsFrom, ih]

@[simp] theorem contents_length (m : Memory) : (contents m).length = m.size := by simp [contents]

@[simp] theorem cellsFrom_contents (a : Nat) (bs : List Byte) : contents (cellsFrom a bs) = bs := by
  induction bs generalizing a with
  | nil => rfl
  | cons b bs ih => simpa [cellsFrom, contents] using ih (a + 1)

theorem cellsFrom_append (a : Nat) (xs ys : List Byte) :
    cellsFrom a (xs ++ ys) = cellsFrom a xs ++ cellsFrom (a + xs.length) ys := by
  induction xs generalizing a with
  | nil => rfl
  | cons x xs ih => simp [cellsFrom, ih, Nat.add_assoc, Nat.add_comm 1]

/-- The buffer after reset has the canonical form. -/
theorem empty_wf : Memory.wf [] := rfl

/-- A buffer laid out from a byte sequence has the canonical form. -/
theorem bufferOf_wf (bs : List Byte) : (bufferOf bs).wf := by
  simp [Memory.wf, bufferOf, cellsFrom_addresses, List.range_eq_range']

@[simp] theorem bufferOf_contents (bs : List Byte) : contents (bufferOf bs) = bs := cellsFrom_contents 0 bs

@[simp] theorem bufferOf_size (bs : List Byte) : (bufferOf bs).size = bs.length := cellsFrom_length 0 bs

/-- Appending keeps the canonical form. -/
theorem appendBytes_wf {m : Memory} (h : m.wf) (bs : List Byte) : (appendBytes m bs).wf := by
  rw [Memory.wf] at h ⊢
  rw [appendBytes, List.map_append, cellsFrom_addresses, h, List.length_append, cellsFrom_length,
    List.range_eq_range', List.range_eq_range']
  simpa using (List.range'_append (s := 0) (m := m.length) (n := bs.length) (step := 1))

@[simp] theorem appendBytes_contents (m : Memory) (bs : List Byte) : contents (appendBytes m bs) = contents m ++ bs := by
  rw [appendBytes, contents, List.map_append]
  exact congrArg _ (cellsFrom_contents _ bs)

@[simp] theorem appendBytes_size (m : Memory) (bs : List Byte) : (appendBytes m bs).size = m.size + bs.length := by
  simp [appendBytes, Memory.size]

theorem appendBytes_nil (m : Memory) : appendBytes m [] = m := by simp [appendBytes, cellsFrom]

/-- Appending twice is appending once. -/
theorem appendBytes_append (m : Memory) (xs ys : List Byte) :
    appendBytes (appendBytes m xs) ys = appendBytes m (xs ++ ys) := by
  simp [appendBytes, cellsFrom_append, Memory.size, List.append_assoc]

/-- A buffer in canonical form is the layout of its contents. -/
theorem eq_cellsFrom_of_addresses {m : Memory} {a : Nat} (h : m.map Prod.fst = List.range' a m.length) :
    m = cellsFrom a (contents m) := by
  induction m generalizing a with
  | nil => rfl
  | cons c m ih =>
    simp only [List.map_cons, List.length_cons, List.range'_succ, List.cons.injEq] at h
    obtain ⟨rfl, h⟩ := h
    have := ih h
    simp only [contents, List.map_cons, cellsFrom] at *
    rw [← this]

theorem eq_bufferOf_of_wf {m : Memory} (h : m.wf) : m = bufferOf (contents m) :=
  eq_cellsFrom_of_addresses (by rw [Memory.wf] at h; rw [h, List.range_eq_range'])

theorem lookup_cellsFrom (a b : Nat) (bs : List Byte) :
    List.lookup b (cellsFrom a bs) = if a ≤ b then bs[b - a]? else none := by
  induction bs generalizing a with
  | nil => simp [cellsFrom]
  | cons x bs ih =>
    rw [cellsFrom, List.lookup_cons, ih]
    rcases Nat.lt_trichotomy a b with h | h | h
    · have : (b == a) = false := by simp; omega
      obtain ⟨k, rfl⟩ : ∃ k, b = a + 1 + k := ⟨b - (a + 1), by omega⟩
      simp [this, show a ≤ a + 1 + k by omega, show a + 1 + k - a = k + 1 by omega]
    · subst h; simp
    · have : (b == a) = false := by simp; omega
      simp [this, show ¬ a ≤ b by omega, show ¬ a + 1 ≤ b by omega]

/-- Reading one byte of a buffer in canonical form. -/
theorem readByte_of_wf {m : Memory} (h : m.wf) (a : Nat) : readByte m a = (contents m)[a]? := by
  conv_lhs => rw [eq_bufferOf_of_wf h]
  simp [readByte, bufferOf, lookup_cellsFrom]

/-- Reading the bytes from an address on, all of them existing. -/
theorem readBytes_of_wf {m : Memory} (h : m.wf) (a n : Nat) (hn : a + n ≤ m.size) :
    readBytes m a n = some (((contents m).drop a).take n) := by
  induction n generalizing a with
  | zero => simp [readBytes]
  | succ n ih =>
    have hl : a < (contents m).length := by rw [contents_length]; omega
    rw [readBytes, readByte_of_wf h, ih (a + 1) (by omega), List.getElem?_eq_getElem hl]
    rw [List.drop_eq_getElem_cons hl, List.take_succ_cons]

/-- Reading as many bytes as are left. -/
theorem readBytes_rest_of_wf {m : Memory} (h : m.wf) (a : Nat) :
    readBytes m a (m.size - a) = some ((contents m).drop a) := by
  rcases Nat.le_total a m.size with ha | ha
  · rw [readBytes_of_wf h a _ (by omega)]
    congr 1
    exact List.take_of_length_le (by simp [contents, Memory.size])
  · rw [Nat.sub_eq_zero_of_le ha, readBytes, List.drop_eq_nil_of_le (by simpa [contents, Memory.size] using ha)]

/-- `MemRead` within the frame. -/
theorem memRead_of_wf {m : Memory} (h : m.wf) (a n : Nat) (hn : a + n ≤ m.size) :
    memRead m a n = .ok (bitsOf n (((contents m).drop a).take n)) := by
  rw [memRead, if_pos hn, readBytes_of_wf h a n hn]

end Sys2Proof.Machine
end

