-- ==== Sys2Proof/Laws/State.lean ====
section
/-! SUPPORT. One lemma per field of State for each update of Machine/Ops.lean, so that no proof unfolds an update. -/

namespace Sys2Proof.Machine

variable (s : State)

@[simp] theorem State.setPipe_pipe (p : Pipe) : (s.setPipe p).pipe = p := rfl
@[simp] theorem State.setPipe_params (p : Pipe) : (s.setPipe p).params = s.params := rfl
@[simp] theorem State.setPipe_cfg (p : Pipe) : (s.setPipe p).cfg = s.cfg := rfl
@[simp] theorem State.setPipe_parked (p : Pipe) : (s.setPipe p).parked = s.parked := rfl
@[simp] theorem State.setPipe_agenda (p : Pipe) : (s.setPipe p).agenda = s.agenda := rfl
@[simp] theorem State.setPipe_draws (p : Pipe) : (s.setPipe p).draws = s.draws := rfl
@[simp] theorem State.setPipe_ret (p : Pipe) : (s.setPipe p).ret = s.ret := rfl
@[simp] theorem State.setPipe_delivered (p : Pipe) : (s.setPipe p).delivered = s.delivered := rfl

@[simp] theorem setPState_pipe (v : PState) : (setPState s v).pipe = { s.pipe with pstate := v } := rfl
@[simp] theorem setPState_params (v : PState) : (setPState s v).params = s.params := rfl
@[simp] theorem setPState_cfg (v : PState) : (setPState s v).cfg = s.cfg := rfl
@[simp] theorem setPState_parked (v : PState) : (setPState s v).parked = s.parked := rfl
@[simp] theorem setPState_agenda (v : PState) : (setPState s v).agenda = s.agenda := rfl
@[simp] theorem setPState_draws (v : PState) : (setPState s v).draws = s.draws := rfl
@[simp] theorem setPState_ret (v : PState) : (setPState s v).ret = s.ret := rfl
@[simp] theorem setPState_delivered (v : PState) : (setPState s v).delivered = s.delivered := rfl

@[simp] theorem setStage_pipe (g : Stage) : (setStage s g).pipe = { s.pipe with stage := g } := rfl
@[simp] theorem setStage_params (g : Stage) : (setStage s g).params = s.params := rfl
@[simp] theorem setStage_cfg (g : Stage) : (setStage s g).cfg = s.cfg := rfl
@[simp] theorem setStage_parked (g : Stage) : (setStage s g).parked = s.parked := rfl
@[simp] theorem setStage_agenda (g : Stage) : (setStage s g).agenda = s.agenda := rfl
@[simp] theorem setStage_draws (g : Stage) : (setStage s g).draws = s.draws := rfl
@[simp] theorem setStage_ret (g : Stage) : (setStage s g).ret = s.ret := rfl
@[simp] theorem setStage_delivered (g : Stage) : (setStage s g).delivered = s.delivered := rfl

@[simp] theorem setEth_pipe (e : Eth) : (setEth s e).pipe = { s.pipe with eth := e } := rfl
@[simp] theorem setEth_params (e : Eth) : (setEth s e).params = s.params := rfl
@[simp] theorem setEth_cfg (e : Eth) : (setEth s e).cfg = s.cfg := rfl
@[simp] theorem setEth_parked (e : Eth) : (setEth s e).parked = s.parked := rfl
@[simp] theorem setEth_agenda (e : Eth) : (setEth s e).agenda = s.agenda := rfl
@[simp] theorem setEth_draws (e : Eth) : (setEth s e).draws = s.draws := rfl
@[simp] theorem setEth_ret (e : Eth) : (setEth s e).ret = s.ret := rfl
@[simp] theorem setEth_delivered (e : Eth) : (setEth s e).delivered = s.delivered := rfl

@[simp] theorem setArp_pipe (a : Arp) : (setArp s a).pipe = { s.pipe with arp := a } := rfl
@[simp] theorem setArp_params (a : Arp) : (setArp s a).params = s.params := rfl
@[simp] theorem setArp_cfg (a : Arp) : (setArp s a).cfg = s.cfg := rfl
@[simp] theorem setArp_parked (a : Arp) : (setArp s a).parked = s.parked := rfl
@[simp] theorem setArp_agenda (a : Arp) : (setArp s a).agenda = s.agenda := rfl
@[simp] theorem setArp_draws (a : Arp) : (setArp s a).draws = s.draws := rfl
@[simp] theorem setArp_ret (a : Arp) : (setArp s a).ret = s.ret := rfl
@[simp] theorem setArp_delivered (a : Arp) : (setArp s a).delivered = s.delivered := rfl

@[simp] theorem setSr_pipe (t : SrStack) : (setSr s t).pipe = { s.pipe with sr := t } := rfl
@[simp] theorem setSr_params (t : SrStack) : (setSr s t).params = s.params := rfl
@[simp] theorem setSr_cfg (t : SrStack) : (setSr s t).cfg = s.cfg := rfl
@[simp] theorem setSr_parked (t : SrStack) : (setSr s t).parked = s.parked := rfl
@[simp] theorem setSr_agenda (t : SrStack) : (setSr s t).agenda = s.agenda := rfl
@[simp] theorem setSr_draws (t : SrStack) : (setSr s t).draws = s.draws := rfl
@[simp] theorem setSr_ret (t : SrStack) : (setSr s t).ret = s.ret := rfl
@[simp] theorem setSr_delivered (t : SrStack) : (setSr s t).delivered = s.delivered := rfl

@[simp] theorem setIpv4_pipe (i : Ipv4) : (setIpv4 s i).pipe = { s.pipe with ipv4 := i } := rfl
@[simp] theorem setIpv4_params (i : Ipv4) : (setIpv4 s i).params = s.params := rfl
@[simp] theorem setIpv4_cfg (i : Ipv4) : (setIpv4 s i).cfg = s.cfg := rfl
@[simp] theorem setIpv4_parked (i : Ipv4) : (setIpv4 s i).parked = s.parked := rfl
@[simp] theorem setIpv4_agenda (i : Ipv4) : (setIpv4 s i).agenda = s.agenda := rfl
@[simp] theorem setIpv4_draws (i : Ipv4) : (setIpv4 s i).draws = s.draws := rfl
@[simp] theorem setIpv4_ret (i : Ipv4) : (setIpv4 s i).ret = s.ret := rfl
@[simp] theorem setIpv4_delivered (i : Ipv4) : (setIpv4 s i).delivered = s.delivered := rfl

@[simp] theorem setCur_pipe (c : Nat) : (setCur s c).pipe = { s.pipe with cur := c } := rfl
@[simp] theorem setCur_params (c : Nat) : (setCur s c).params = s.params := rfl
@[simp] theorem setCur_cfg (c : Nat) : (setCur s c).cfg = s.cfg := rfl
@[simp] theorem setCur_parked (c : Nat) : (setCur s c).parked = s.parked := rfl
@[simp] theorem setCur_agenda (c : Nat) : (setCur s c).agenda = s.agenda := rfl
@[simp] theorem setCur_draws (c : Nat) : (setCur s c).draws = s.draws := rfl
@[simp] theorem setCur_ret (c : Nat) : (setCur s c).ret = s.ret := rfl
@[simp] theorem setCur_delivered (c : Nat) : (setCur s c).delivered = s.delivered := rfl

@[simp] theorem setEgress_pipe (q : Port) : (setEgress s q).pipe = { s.pipe with egressValid := true, egressPort := q } := rfl
@[simp] theorem setEgress_params (q : Port) : (setEgress s q).params = s.params := rfl
@[simp] theorem setEgress_cfg (q : Port) : (setEgress s q).cfg = s.cfg := rfl
@[simp] theorem setEgress_parked (q : Port) : (setEgress s q).parked = s.parked := rfl
@[simp] theorem setEgress_agenda (q : Port) : (setEgress s q).agenda = s.agenda := rfl
@[simp] theorem setEgress_draws (q : Port) : (setEgress s q).draws = s.draws := rfl
@[simp] theorem setEgress_ret (q : Port) : (setEgress s q).ret = s.ret := rfl
@[simp] theorem setEgress_delivered (q : Port) : (setEgress s q).delivered = s.delivered := rfl

@[simp] theorem emit_pipe (bs : List Byte) : (emit s bs).pipe = { s.pipe with outBuf := appendBytes s.pipe.outBuf bs } := rfl
@[simp] theorem emit_params (bs : List Byte) : (emit s bs).params = s.params := rfl
@[simp] theorem emit_cfg (bs : List Byte) : (emit s bs).cfg = s.cfg := rfl
@[simp] theorem emit_parked (bs : List Byte) : (emit s bs).parked = s.parked := rfl
@[simp] theorem emit_agenda (bs : List Byte) : (emit s bs).agenda = s.agenda := rfl
@[simp] theorem emit_draws (bs : List Byte) : (emit s bs).draws = s.draws := rfl
@[simp] theorem emit_ret (bs : List Byte) : (emit s bs).ret = s.ret := rfl
@[simp] theorem emit_delivered (bs : List Byte) : (emit s bs).delivered = s.delivered := rfl

@[simp] theorem enterParseError_pipe (c : Cause) : (enterParseError s c).pipe = { s.pipe with pstate := .reject, err := c, drop := true, stage := .done } := rfl
@[simp] theorem enterParseError_params (c : Cause) : (enterParseError s c).params = s.params := rfl
@[simp] theorem enterParseError_cfg (c : Cause) : (enterParseError s c).cfg = s.cfg := rfl
@[simp] theorem enterParseError_parked (c : Cause) : (enterParseError s c).parked = s.parked := rfl
@[simp] theorem enterParseError_agenda (c : Cause) : (enterParseError s c).agenda = s.agenda := rfl
@[simp] theorem enterParseError_draws (c : Cause) : (enterParseError s c).draws = s.draws := rfl
@[simp] theorem enterParseError_ret (c : Cause) : (enterParseError s c).ret = s.ret := rfl
@[simp] theorem enterParseError_delivered (c : Cause) : (enterParseError s c).delivered = s.delivered := rfl

@[simp] theorem enterDrop_pipe (c : Cause) : (enterDrop s c).pipe = { s.pipe with err := c, drop := true } := rfl
@[simp] theorem enterDrop_params (c : Cause) : (enterDrop s c).params = s.params := rfl
@[simp] theorem enterDrop_cfg (c : Cause) : (enterDrop s c).cfg = s.cfg := rfl
@[simp] theorem enterDrop_parked (c : Cause) : (enterDrop s c).parked = s.parked := rfl
@[simp] theorem enterDrop_agenda (c : Cause) : (enterDrop s c).agenda = s.agenda := rfl
@[simp] theorem enterDrop_draws (c : Cause) : (enterDrop s c).draws = s.draws := rfl
@[simp] theorem enterDrop_ret (c : Cause) : (enterDrop s c).ret = s.ret := rfl
@[simp] theorem enterDrop_delivered (c : Cause) : (enterDrop s c).delivered = s.delivered := rfl

@[simp] theorem setRet_ret (r : Returned) : (setRet s r).ret = r := rfl
@[simp] theorem setRet_params (r : Returned) : (setRet s r).params = s.params := rfl
@[simp] theorem setRet_cfg (r : Returned) : (setRet s r).cfg = s.cfg := rfl
@[simp] theorem setRet_pipe (r : Returned) : (setRet s r).pipe = s.pipe := rfl
@[simp] theorem setRet_parked (r : Returned) : (setRet s r).parked = s.parked := rfl
@[simp] theorem setRet_agenda (r : Returned) : (setRet s r).agenda = s.agenda := rfl
@[simp] theorem setRet_draws (r : Returned) : (setRet s r).draws = s.draws := rfl
@[simp] theorem setRet_delivered (r : Returned) : (setRet s r).delivered = s.delivered := rfl

@[simp] theorem popTurn_agenda : (popTurn s).agenda = s.agenda.tail := rfl
@[simp] theorem popTurn_params : (popTurn s).params = s.params := rfl
@[simp] theorem popTurn_cfg : (popTurn s).cfg = s.cfg := rfl
@[simp] theorem popTurn_pipe : (popTurn s).pipe = s.pipe := rfl
@[simp] theorem popTurn_parked : (popTurn s).parked = s.parked := rfl
@[simp] theorem popTurn_draws : (popTurn s).draws = s.draws := rfl
@[simp] theorem popTurn_ret : (popTurn s).ret = s.ret := rfl
@[simp] theorem popTurn_delivered : (popTurn s).delivered = s.delivered := rfl

@[simp] theorem publish_cfg (c : Snapshot) : (publish s c).cfg = c := rfl
@[simp] theorem publish_pipe (c : Snapshot) : (publish s c).pipe = s.pipe.supersede s.cfg := rfl
@[simp] theorem publish_parked (c : Snapshot) : (publish s c).parked = s.parked.map fun p => p.supersede s.cfg := rfl
@[simp] theorem publish_params (c : Snapshot) : (publish s c).params = s.params := rfl
@[simp] theorem publish_agenda (c : Snapshot) : (publish s c).agenda = s.agenda := rfl
@[simp] theorem publish_draws (c : Snapshot) : (publish s c).draws = s.draws := rfl
@[simp] theorem publish_ret (c : Snapshot) : (publish s c).ret = s.ret := rfl
@[simp] theorem publish_delivered (c : Snapshot) : (publish s c).delivered = s.delivered := rfl

/-- The snapshot a frame reads depends on nothing but the published configuration and the instance's own record of it. -/
theorem snapshot_congr {s t : State} (hc : t.cfg = s.cfg) (ho : t.pipe.older = s.pipe.older)
    (hd : t.pipe.drawId = s.pipe.drawId) : t.snapshot = s.snapshot := by
  simp [State.snapshot, hc, ho, hd]

end Sys2Proof.Machine
end

