-- ==== Sys2Proof/Laws/Ops.lean ====
section
/-! SUPPORT. For each shared operation, once, everything it can do. -/

namespace Sys2Proof.Machine

/-! ## Flow -/

@[simp] theorem andThen_go (s : State) (k : State → Flow) : (Flow.go s).andThen k = k s := rfl
@[simp] theorem andThen_raised (s : State) (k : State → Flow) : (Flow.raised s).andThen k = .raised s := rfl
@[simp] theorem andThen_stop (f : Fault) (k : State → Flow) : (Flow.stop f).andThen k = .stop f := rfl
@[simp] theorem withVal_ok {α : Type} (a : α) (k : α → Flow) : withVal (.ok a) k = k a := rfl
@[simp] theorem withVal_error {α : Type} (f : Fault) (k : α → Flow) : withVal (.error f) k = .stop f := rfl
@[simp] theorem outcome_go (s : State) : (Flow.go s).outcome = .next s := rfl
@[simp] theorem outcome_raised (s : State) : (Flow.raised s).outcome = .next s := rfl
@[simp] theorem outcome_stop (f : Fault) : (Flow.stop f).outcome = .fault f := rfl
@[simp] theorem onNext_next (k : State → State) (s : State) : onNext k (.next s) = .next (k s) := rfl
@[simp] theorem onNext_fault (k : State → State) (f : Fault) : onNext k (.fault f) = .fault f := rfl
@[simp] theorem onNext_refused (k : State → State) (r : Refusal) : onNext k (.refused r) = .refused r := rfl

/-- An operation that goes on or raises answers a next state; it never refuses. -/
theorem outcome_eq_next {x : Flow} {t : State} (h : x.outcome = .next t) : x = .go t ∨ x = .raised t := by
  cases x <;> simp_all [Flow.outcome]

/-- A sequence of statements went on exactly when both parts did, and raised when one of them did. -/
theorem andThen_cases {x : Flow} {k : State → Flow} {y : Flow} (h : x.andThen k = y) :
    (∃ s, x = .go s ∧ k s = y) ∨ (∃ s, x = .raised s ∧ y = .raised s) ∨ (∃ f, x = .stop f ∧ y = .stop f) := by
  cases x with
  | go s => exact .inl ⟨s, rfl, h⟩
  | raised s => exact .inr (.inl ⟨s, rfl, h.symm⟩)
  | stop f => exact .inr (.inr ⟨f, rfl, h.symm⟩)

/-- A next state that was passed on comes from a next state. -/
theorem onNext_eq_next {k : State → State} {o : Host.Outcome State Fault Refusal} {t : State}
    (h : onNext k o = .next t) : ∃ s, o = .next s ∧ t = k s := by
  cases o <;> simp_all [onNext]

/-! ## Accessors -/

theorem readEth_of_valid {s : State} (h : s.pipe.eth.valid = true) : readEth s = .ok s.pipe.eth := by simp [readEth, h]
theorem readEth_of_invalid {s : State} (h : s.pipe.eth.valid = false) : readEth s = .error .invalidEth := by
  simp [readEth, h]
theorem readArp_of_valid {s : State} (h : s.pipe.arp.valid = true) : readArp s = .ok s.pipe.arp := by simp [readArp, h]
theorem readArp_of_invalid {s : State} (h : s.pipe.arp.valid = false) : readArp s = .error .invalidArp := by
  simp [readArp, h]
theorem readIpv4_of_valid {s : State} (h : s.pipe.ipv4.valid = true) : readIpv4 s = .ok s.pipe.ipv4 := by
  simp [readIpv4, h]
theorem readIpv4_of_invalid {s : State} (h : s.pipe.ipv4.valid = false) : readIpv4 s = .error .invalidIpv4 := by
  simp [readIpv4, h]

/-- An entry of the stack is read; anything outside is a fault. -/
theorem readEntry_of_lt {s : State} {i : Nat} (h : i < s.pipe.sr.len) (h' : i < 10) :
    readEntry s i = .ok s.pipe.sr.e[i] := by
  simp [readEntry, h, h']

theorem readEntry_of_le {s : State} {i : Nat} (h : s.pipe.sr.len ≤ i) : readEntry s i = .error .srIndex := by
  simp [readEntry, Nat.not_lt.2 h]

/-! ## Decoding a header -/

/-- A short frame: the parse error, nothing else written. -/
theorem decodeHeader_short {s : State} {n : Nat} (k : State → BitVec (8 * n) → Flow)
    (h : s.pipe.inBuf.size - s.pipe.cur < n) : decodeHeader s n k = .raised (enterParseError s .truncatedHeader) := by
  rw [decodeHeader, if_pos h, raiseParseError]

/-- A frame that holds the header: its bytes, read big-endian, and the cursor after them. -/
theorem decodeHeader_long {s : State} {n : Nat} (k : State → BitVec (8 * n) → Flow) (hw : s.pipe.inBuf.wf)
    (h0 : 0 < n) (h : n ≤ s.pipe.inBuf.size - s.pipe.cur) :
    decodeHeader s n k
      = k (setCur s (s.pipe.cur + n)) (bitsOf n (((contents s.pipe.inBuf).drop s.pipe.cur).take n)) := by
  rw [decodeHeader, if_neg (by omega), memRead_of_wf hw _ _ (by omega), withVal_ok]

/-! ## The exceptions -/

theorem raiseParseError_eq (s : State) (c : Cause) : raiseParseError s c = .raised (enterParseError s c) := rfl
theorem raiseDrop_eq (s : State) (c : Cause) : raiseDrop s c = .raised (enterDrop s c) := rfl

/-! ## The ingress port -/

/-- After every INGRESS that is carried out, in whatever state the instance was, `meta.ingress_port` reads as the port the
transport supplied (10_state.md R42, R55). -/
theorem execIngress_readIngressPort {s t : State} {bytes : List Byte} {port : Port}
    (h : execIngress bytes port s = .next t) : readIngressPort t = .ok port := by
  simp only [execIngress] at h
  split at h
  · cases h
  · split at h
    · cases h
    · split at h
      · cases h
      · cases h
        rfl

/-- After block reset `meta.ingress_port` is unspecified, and reading it is a fault (10_state.md R55,
93_implementation_defined.md I13). -/
theorem blockReset_readIngressPort (s : State) : readIngressPort (blockReset s) = .error .noIngressPort := rfl

/-! ## Publishing -/

/-- A frame in flight keeps a replaced snapshot as one more it may read; nothing else of an instance changes
(20_memory.md R90). -/
theorem supersede_cases (p : Pipe) (o : Snapshot) :
    p.supersede o = p ∨ p.supersede o = { p with older := o :: p.older } := by
  rw [Pipe.supersede]
  split <;> simp

/-- The snapshot a frame reads is one of those it may read (20_memory.md R90). -/
theorem snapshot_of_none_replaced {s : State} (h : s.pipe.older = []) : s.snapshot = s.cfg := by rw [State.snapshot, h]

end Sys2Proof.Machine
end

