-- ==== Sys2Proof/Laws/Codec.lean ====
section
/-! SUPPORT. Byte order: bytes and bit strings are inverse to each other, most significant byte first. -/

namespace Sys2Proof.Machine

theorem valueOf_snoc (bs : List Byte) (b : Byte) : valueOf (bs ++ [b]) = valueOf bs * 256 + b.toNat := by
  simp [valueOf]

theorem valueOf_lt (bs : List Byte) : valueOf bs < 2 ^ (8 * bs.length) := by
  induction bs using List.reverseRecOn with
  | nil => simp [valueOf]
  | append_singleton bs b ih =>
    have hb : b.toNat < 256 := b.isLt
    rw [valueOf_snoc, List.length_append, List.length_singleton, Nat.mul_add, Nat.pow_add]
    omega

/-- The bytes of a number, most significant first. -/
def natBytes (n x : Nat) : List Byte := (List.range n).map fun k => BitVec.ofNat 8 (x >>> (8 * (n - 1 - k)))

theorem natBytes_succ (n x : Nat) : natBytes (n + 1) x = natBytes n (x / 256) ++ [BitVec.ofNat 8 x] := by
  rw [natBytes, List.range_succ, List.map_append, natBytes]
  congr 1
  · apply List.map_congr_left
    intro k hk
    have hk := List.mem_range.1 hk
    rw [show 8 * (n + 1 - 1 - k) = 8 + 8 * (n - 1 - k) by omega, Nat.shiftRight_add,
      Nat.shiftRight_eq_div_pow x 8]
  · simp

theorem valueOf_natBytes (n x : Nat) : valueOf (natBytes n x) = x % 2 ^ (8 * n) := by
  induction n generalizing x with
  | zero => simp [natBytes, valueOf, Nat.mod_one]
  | succ n ih =>
    rw [natBytes_succ, valueOf_snoc, ih, BitVec.toNat_ofNat, Nat.mul_add, Nat.pow_add, Nat.mul_comm (2 ^ (8 * n)),
      show 2 ^ (8 * 1) = 256 by decide, Nat.mod_mul]
    show _ + x % 256 = _
    omega

theorem natBytes_valueOf (bs : List Byte) : natBytes bs.length (valueOf bs) = bs := by
  induction bs using List.reverseRecOn with
  | nil => rfl
  | append_singleton bs b ih =>
    have hb : b.toNat < 256 := b.isLt
    rw [valueOf_snoc, List.length_append, List.length_singleton, natBytes_succ,
      show (valueOf bs * 256 + b.toNat) / 256 = valueOf bs by omega, ih]
    congr 2
    apply BitVec.eq_of_toNat_eq
    rw [BitVec.toNat_ofNat]
    omega

theorem bytesOf_eq (n : Nat) (v : BitVec (8 * n)) : bytesOf n v = natBytes n v.toNat := rfl

@[simp] theorem bytesOf_length (n : Nat) (v : BitVec (8 * n)) : (bytesOf n v).length = n := by simp [bytesOf]

/-- Reading the bytes of a bit string gives it back. -/
theorem bitsOf_bytesOf (n : Nat) (v : BitVec (8 * n)) : bitsOf n (bytesOf n v) = v := by
  rw [bitsOf, bytesOf_eq, valueOf_natBytes]
  apply BitVec.eq_of_toNat_eq
  rw [BitVec.toNat_ofNat, Nat.mod_mod, Nat.mod_eq_of_lt v.isLt]

/-- The bytes of what was read are the bytes it was read from. -/
theorem bytesOf_bitsOf (n : Nat) (bs : List Byte) (h : bs.length = n) : bytesOf n (bitsOf n bs) = bs := by
  subst h
  rw [bytesOf_eq, bitsOf, BitVec.toNat_ofNat, Nat.mod_eq_of_lt (valueOf_lt bs), natBytes_valueOf]

/-- The byte at place `k` of a bit string (00_scope.md R19). -/
theorem bytesOf_getElem (n k : Nat) (v : BitVec (8 * n)) (h : k < n) :
    (bytesOf n v)[k]'(by simpa using h) = v.extractLsb' (8 * (n - 1 - k)) 8 := by simp [bytesOf]

/-! ## Slices of bit strings -/

/-- Two adjacent slices are one slice. -/
theorem slices_join {w : Nat} (h : BitVec w) (s n m l : Nat) (e : s + n = l) :
    h.extractLsb' l m ++ h.extractLsb' s n = h.extractLsb' s (m + n) := by
  subst e
  apply BitVec.eq_of_getLsbD_eq
  intro i hi
  simp only [BitVec.getLsbD_append, BitVec.getLsbD_extractLsb']
  split
  · have : i < m + n := by omega
    simp [*]
  · have : i - n < m := by omega
    simp [*, show s + n + (i - n) = s + i by omega]

theorem slice_whole {w : Nat} (h : BitVec w) : h.extractLsb' 0 w = h := by
  apply BitVec.eq_of_getLsbD_eq
  intro i hi
  simp [hi]

/-- A slice of a concatenation that lies in its upper part. -/
theorem slice_upper {m n : Nat} (a : BitVec m) (b : BitVec n) (k l j : Nat) (e : n + k = j) :
    (a ++ b).extractLsb' j l = a.extractLsb' k l := by
  subst e
  apply BitVec.eq_of_getLsbD_eq
  intro i hi
  simp only [BitVec.getLsbD_append, BitVec.getLsbD_extractLsb']
  simp [hi, show ¬ (n + k + i < n) by omega, show n + k + i - n = k + i by omega]

/-- A slice of a concatenation that lies in its lower part. -/
theorem slice_lower {m n : Nat} (a : BitVec m) (b : BitVec n) (k l : Nat) (e : k + l ≤ n) :
    (a ++ b).extractLsb' k l = b.extractLsb' k l := by
  apply BitVec.eq_of_getLsbD_eq
  intro i hi
  simp only [BitVec.getLsbD_append, BitVec.getLsbD_extractLsb']
  simp [hi, show k + i < n by omega]

end Sys2Proof.Machine
end

