-- ==== Sys2Proof/Laws/Checksum.lean ====
section
/-! SUPPORT. The end-around carry loop of the checksum. -/

namespace Sys2Proof.Machine

/-- Two rounds bring a sum of ten 16-bit words to 16 bits, without a change modulo 0xFFFF, and to 0 only from 0
(45_checksum.md R331). -/
theorem foldCarry_two (x : Nat) (h : x ≤ 0x9FFF6) :
    foldCarry 2 x ≤ 0xFFFF ∧ foldCarry 2 x % 0xFFFF = x % 0xFFFF ∧ (foldCarry 2 x = 0 ↔ x = 0) := by
  simp only [foldCarry]
  split
  · split
    · refine ⟨?_, ?_, ?_⟩ <;> omega
    · refine ⟨?_, ?_, ?_⟩ <;> omega
  · refine ⟨by omega, rfl, Iff.rfl⟩

/-- The ones' complement of a 16-bit number. -/
theorem complement_toNat (f : Nat) (h : f ≤ 0xFFFF) : (~~~ BitVec.ofNat 16 f).toNat = 0xFFFF - f := by
  rw [BitVec.toNat_not, BitVec.toNat_ofNat, Nat.mod_eq_of_lt (by omega)]

/-! ## The words of a header -/

theorem word_of_bytes (v : BitVec 160) (k : Nat) :
    (v.extractLsb' (k + 8) 8).toNat * 256 + (v.extractLsb' k 8).toNat = (v.extractLsb' k 16).toNat := by
  have h := congrArg BitVec.toNat (slices_join v k 8 8 (k + 8) rfl)
  rw [BitVec.toNat_append, Nat.shiftLeft_eq, Nat.or_comm] at h
  rw [← h, Nat.or_comm, ← Nat.shiftLeft_eq, ← Nat.shiftLeft_add_eq_or_of_lt (BitVec.isLt _), Nat.shiftLeft_eq]

/-- The ten words of a 20-byte bit string. -/
theorem wordsOf_bytesOf (v : BitVec 160) :
    wordsOf (bytesOf 20 v) = [(v.extractLsb' 144 16).toNat, (v.extractLsb' 128 16).toNat, (v.extractLsb' 112 16).toNat,
      (v.extractLsb' 96 16).toNat, (v.extractLsb' 80 16).toNat, (v.extractLsb' 64 16).toNat, (v.extractLsb' 48 16).toNat,
      (v.extractLsb' 32 16).toNat, (v.extractLsb' 16 16).toNat, (v.extractLsb' 0 16).toNat] := by
  simp only [← word_of_bytes]
  rfl

/-- The last two parts of a concatenation. -/
theorem slice_two {l m n : Nat} (x : BitVec l) (a : BitVec m) (b : BitVec n) :
    (x ++ a ++ b).extractLsb' 0 (m + n) = a ++ b := by
  apply BitVec.eq_of_getLsbD_eq
  intro i hi
  simp only [BitVec.getLsbD_append, BitVec.getLsbD_extractLsb']
  by_cases h : i < n
  · simp [h, hi]
  · simp [h, hi, show i - n < m by omega]

/-- The ten words of a header's wire bytes (45_checksum.md R331). -/
theorem wordsOf_ipv4Bytes (i : Ipv4) :
    wordsOf (ipv4Bytes i) = [(i.version ++ i.ihl ++ i.tos).toNat, i.totalLen.toNat, i.ident.toNat, (i.flags ++ i.fragOff).toNat, (i.ttl ++ i.protocol).toNat, i.checksum.toNat, (i.src.extractLsb' 16 16).toNat, (i.src.extractLsb' 0 16).toNat, (i.dst.extractLsb' 16 16).toNat, (i.dst.extractLsb' 0 16).toNat] := by
  have p12 : ∀ lo lo', 32 + lo' = lo → (packIpv4 i).extractLsb' lo 16
      = (i.version ++ i.ihl ++ i.tos ++ i.totalLen ++ i.ident ++ i.flags ++ i.fragOff ++ i.ttl ++ i.protocol ++ i.checksum ++ i.src).extractLsb' lo' 16 :=
    fun lo lo' e => slice_upper _ _ lo' 16 lo e
  have p11 : ∀ lo lo', 32 + lo' = lo → (i.version ++ i.ihl ++ i.tos ++ i.totalLen ++ i.ident ++ i.flags ++ i.fragOff ++ i.ttl ++ i.protocol ++ i.checksum ++ i.src).extractLsb' lo 16
      = (i.version ++ i.ihl ++ i.tos ++ i.totalLen ++ i.ident ++ i.flags ++ i.fragOff ++ i.ttl ++ i.protocol ++ i.checksum).extractLsb' lo' 16 :=
    fun lo lo' e => slice_upper _ _ lo' 16 lo e
  have p10 : ∀ lo lo', 16 + lo' = lo → (i.version ++ i.ihl ++ i.tos ++ i.totalLen ++ i.ident ++ i.flags ++ i.fragOff ++ i.ttl ++ i.protocol ++ i.checksum).extractLsb' lo 16
      = (i.version ++ i.ihl ++ i.tos ++ i.totalLen ++ i.ident ++ i.flags ++ i.fragOff ++ i.ttl ++ i.protocol).extractLsb' lo' 16 :=
    fun lo lo' e => slice_upper _ _ lo' 16 lo e
  have p9 : ∀ lo lo', 8 + lo' = lo → (i.version ++ i.ihl ++ i.tos ++ i.totalLen ++ i.ident ++ i.flags ++ i.fragOff ++ i.ttl ++ i.protocol).extractLsb' lo 16
      = (i.version ++ i.ihl ++ i.tos ++ i.totalLen ++ i.ident ++ i.flags ++ i.fragOff ++ i.ttl).extractLsb' lo' 16 :=
    fun lo lo' e => slice_upper _ _ lo' 16 lo e
  have p8 : ∀ lo lo', 8 + lo' = lo → (i.version ++ i.ihl ++ i.tos ++ i.totalLen ++ i.ident ++ i.flags ++ i.fragOff ++ i.ttl).extractLsb' lo 16
      = (i.version ++ i.ihl ++ i.tos ++ i.totalLen ++ i.ident ++ i.flags ++ i.fragOff).extractLsb' lo' 16 :=
    fun lo lo' e => slice_upper _ _ lo' 16 lo e
  have p7 : ∀ lo lo', 13 + lo' = lo → (i.version ++ i.ihl ++ i.tos ++ i.totalLen ++ i.ident ++ i.flags ++ i.fragOff).extractLsb' lo 16
      = (i.version ++ i.ihl ++ i.tos ++ i.totalLen ++ i.ident ++ i.flags).extractLsb' lo' 16 :=
    fun lo lo' e => slice_upper _ _ lo' 16 lo e
  have p6 : ∀ lo lo', 3 + lo' = lo → (i.version ++ i.ihl ++ i.tos ++ i.totalLen ++ i.ident ++ i.flags).extractLsb' lo 16
      = (i.version ++ i.ihl ++ i.tos ++ i.totalLen ++ i.ident).extractLsb' lo' 16 :=
    fun lo lo' e => slice_upper _ _ lo' 16 lo e
  have p5 : ∀ lo lo', 16 + lo' = lo → (i.version ++ i.ihl ++ i.tos ++ i.totalLen ++ i.ident).extractLsb' lo 16
      = (i.version ++ i.ihl ++ i.tos ++ i.totalLen).extractLsb' lo' 16 :=
    fun lo lo' e => slice_upper _ _ lo' 16 lo e
  have p4 : ∀ lo lo', 16 + lo' = lo → (i.version ++ i.ihl ++ i.tos ++ i.totalLen).extractLsb' lo 16
      = (i.version ++ i.ihl ++ i.tos).extractLsb' lo' 16 :=
    fun lo lo' e => slice_upper _ _ lo' 16 lo e
  have h0 : (packIpv4 i).extractLsb' 144 16 = i.version ++ i.ihl ++ i.tos := by
    rw [p12 144 112 rfl, p11 112 80 rfl, p10 80 64 rfl, p9 64 56 rfl, p8 56 48 rfl, p7 48 35 rfl, p6 35 32 rfl, p5 32 16 rfl, p4 16 0 rfl]
    exact slice_whole _
  have h1 : (packIpv4 i).extractLsb' 128 16 = i.totalLen := by
    rw [p12 128 96 rfl, p11 96 64 rfl, p10 64 48 rfl, p9 48 40 rfl, p8 40 32 rfl, p7 32 19 rfl, p6 19 16 rfl, p5 16 0 rfl]
    exact (slice_lower _ _ 0 16 (by decide)).trans (slice_whole _)
  have h2 : (packIpv4 i).extractLsb' 112 16 = i.ident := by
    rw [p12 112 80 rfl, p11 80 48 rfl, p10 48 32 rfl, p9 32 24 rfl, p8 24 16 rfl, p7 16 3 rfl, p6 3 0 rfl]
    exact (slice_lower _ _ 0 16 (by decide)).trans (slice_whole _)
  have h3 : (packIpv4 i).extractLsb' 96 16 = i.flags ++ i.fragOff := by
    rw [p12 96 64 rfl, p11 64 32 rfl, p10 32 16 rfl, p9 16 8 rfl, p8 8 0 rfl]
    exact slice_two _ _ _
  have h4 : (packIpv4 i).extractLsb' 80 16 = i.ttl ++ i.protocol := by
    rw [p12 80 48 rfl, p11 48 16 rfl, p10 16 0 rfl]
    exact slice_two _ _ _
  have h5 : (packIpv4 i).extractLsb' 64 16 = i.checksum := by
    rw [p12 64 32 rfl, p11 32 0 rfl]
    exact (slice_lower _ _ 0 16 (by decide)).trans (slice_whole _)
  have h6 : (packIpv4 i).extractLsb' 48 16 = i.src.extractLsb' 16 16 := by
    rw [p12 48 16 rfl]
    exact slice_lower _ _ 16 16 (by decide)
  have h7 : (packIpv4 i).extractLsb' 32 16 = i.src.extractLsb' 0 16 := by
    rw [p12 32 0 rfl]
    exact slice_lower _ _ 0 16 (by decide)
  have h8 : (packIpv4 i).extractLsb' 16 16 = i.dst.extractLsb' 16 16 := by
    exact slice_lower _ _ 16 16 (by decide)
  have h9 : (packIpv4 i).extractLsb' 0 16 = i.dst.extractLsb' 0 16 := by
    exact slice_lower _ _ 0 16 (by decide)
  rw [ipv4Bytes, wordsOf_bytesOf, h0, h1, h2, h3, h4, h5, h6, h7, h8, h9]

end Sys2Proof.Machine
end

