-- ==== Sys2Proof/Laws/Select.lean ====
section
/-! SUPPORT. The select keys against the rows of the operation map: which row a key of each stage matches first. -/

namespace Sys2Proof.Machine

/-- Two concatenations are equal when their parts are. -/
theorem append_eq_iff {m n : Nat} {a c : BitVec m} {b d : BitVec n} : a ++ b = c ++ d ↔ a = c ∧ b = d := by
  constructor
  · intro h
    constructor
    · apply BitVec.eq_of_getElem_eq
      intro i hi
      have := congrArg (fun x => x.getLsbD (n + i)) h
      simpa [BitVec.getLsbD_append, hi] using this
    · apply BitVec.eq_of_getElem_eq
      intro i hi
      have := congrArg (fun x => x.getLsbD i) h
      simpa [BitVec.getLsbD_append, hi] using this
  · rintro ⟨rfl, rfl⟩
    rfl

/-- A mask applies to the parts of a concatenation. -/
theorem append_and {m n : Nat} (a c : BitVec m) (b d : BitVec n) : (a ++ b) &&& (c ++ d) = (a &&& c) ++ (b &&& d) := by
  apply BitVec.eq_of_getLsbD_eq
  intro i hi
  simp only [BitVec.getLsbD_and, BitVec.getLsbD_append]
  split <;> simp

theorem pskKey_and (full : Bool) (st : PState) (t : Half) (m : BitVec 4) (mt : Half) :
    pskKey full st t &&& (m ++ mt) = ((BitVec.ofBool full ++ st.code) &&& m) ++ (t &&& mt) := append_and _ _ _ _

/-- The row of a key formed in START: the type tag decides (30_encoding.md R120). -/
theorem firstRow_pskStart (p : Params) (full : Bool) (t : Half) :
    firstRow (pskSelectRows p) (pskKey full .start t) = some
      (if t = Config.etherArp then .startArp else if t = p.srType then .startSr
       else if t = Config.etherIpv4 then .startIpv4 else .startOther) := by
  have m1 : (0x7FFFF#20 : BitVec 20) = 0x7#4 ++ 0xFFFF#16 := by decide
  have m2 : (0x70000#20 : BitVec 20) = 0x7#4 ++ 0#16 := by decide
  have e0 : (0x00000#20 : BitVec 20) = 0#4 ++ 0#16 := by decide
  have hb : (BitVec.ofBool full ++ PState.start.code) &&& 0x7#4 = 0#4 := by cases full <;> decide
  have ht : t &&& 0xFFFF#16 = t := BitVec.and_allOnes (x := t)
  have key : ∀ c : Half, (pskKey full .start t &&& 0x7FFFF#20 = 0#4 ++ c) ↔ t = c := by
    intro c
    rw [m1, pskKey_and, append_eq_iff, hb, ht]
    simp
  have key2 : pskKey full .start t &&& 0x70000#20 = 0x00000#20 := by
    rw [m2, pskKey_and, e0, append_eq_iff, hb]
    exact ⟨rfl, BitVec.and_zero⟩
  simp only [pskSelectRows, firstRow, key, key2, if_true]
  split
  · rfl
  split
  · rfl
  split <;> rfl

/-- The row of a key formed in PARSE_SR with room left: the bottom-of-stack flag decides (30_encoding.md R120). -/
theorem firstRow_pskSr (p : Params) (t : Half) :
    firstRow (pskSelectRows p) (pskKey false .parseSr t) = some (if t.getLsbD 15 then .srBos1 else .srBos0) := by
  have m1 : (0x7FFFF#20 : BitVec 20) = 0x7#4 ++ 0xFFFF#16 := by decide
  have m2 : (0x70000#20 : BitVec 20) = 0x7#4 ++ 0#16 := by decide
  have m3 : (0xF0000#20 : BitVec 20) = 0xF#4 ++ 0#16 := by decide
  have m4 : (0xF8000#20 : BitVec 20) = 0xF#4 ++ 0x8000#16 := by decide
  have hb : (BitVec.ofBool false ++ PState.parseSr.code) &&& 0x7#4 = 2#4 := by decide
  have hf : (BitVec.ofBool false ++ PState.parseSr.code) &&& 0xF#4 = 2#4 := by decide
  have htt : t &&& 0x8000#16 = if t.getLsbD 15 then 0x8000#16 else 0#16 := by
    rw [show (0x8000#16 : BitVec 16) = BitVec.twoPow 16 15 by decide, BitVec.and_twoPow]
  have k1 : ∀ c : Half, ¬ (pskKey false .parseSr t &&& 0x7FFFF#20 = 0#4 ++ c) := by
    intro c h
    rw [m1, pskKey_and, append_eq_iff, hb] at h
    exact absurd h.1 (by decide)
  have k2 : ¬ (pskKey false .parseSr t &&& 0x70000#20 = 0x00000#20) := by
    intro h
    rw [m2, pskKey_and, show (0x00000#20 : BitVec 20) = 0#4 ++ 0#16 by decide, append_eq_iff, hb] at h
    exact absurd h.1 (by decide)
  have k3 : ¬ (pskKey false .parseSr t &&& 0xF0000#20 = 0xA0000#20) := by
    intro h
    rw [m3, pskKey_and, show (0xA0000#20 : BitVec 20) = 0xA#4 ++ 0#16 by decide, append_eq_iff, hf] at h
    exact absurd h.1 (by decide)
  have k4 : (pskKey false .parseSr t &&& 0xF8000#20 = 0x28000#20) ↔ t.getLsbD 15 = true := by
    rw [m4, pskKey_and, show (0x28000#20 : BitVec 20) = 2#4 ++ 0x8000#16 by decide, append_eq_iff, hf, htt]
    cases t.getLsbD 15 <;> simp
  have k5 : (pskKey false .parseSr t &&& 0xF8000#20 = 0x20000#20) ↔ t.getLsbD 15 = false := by
    rw [m4, pskKey_and, show (0x20000#20 : BitVec 20) = 2#4 ++ 0#16 by decide, append_eq_iff, hf, htt]
    cases t.getLsbD 15 <;> simp
  simp only [pskSelectRows, firstRow, k1, k2, k3, k4, k5, if_false]
  cases t.getLsbD 15 <;> simp

/-- What the branch of P_START does: it writes the parser state and nothing else. -/
theorem selectNext_start (full : Bool) (t : Half) (s : State) :
    selectNext (pskKey full .start t) s = .go (setPState s
      (if t = Config.etherArp then .parseArp else if t = s.params.srType then .parseSr
       else if t = Config.etherIpv4 then .parseIpv4 else .accept)) := by
  rw [selectNext, firstRow_pskStart]
  dsimp only
  split
  · rfl
  split
  · rfl
  split <;> rfl

/-- What the branch of P_SR does with room left. -/
theorem selectNext_sr (t : Half) (s : State) :
    selectNext (pskKey false .parseSr t) s = .go (setPState s (if t.getLsbD 15 then .parseIpv4 else .parseSr)) := by
  rw [selectNext, firstRow_pskSr]
  dsimp only
  split <;> rfl

/-- The bottom-of-stack flag is the most significant bit of the entry's word (30_encoding.md R113). -/
@[simp] theorem packSr_bit15 (e : SrEntry) : (packSr e).getLsbD 15 = e.bos := by
  show (BitVec.ofBool e.bos ++ e.port).getLsbD 15 = e.bos
  rw [BitVec.getLsbD_append]
  cases e.bos <;> rfl

/-- The low eight bits of a decision key under a row's mask. -/
abbrev dskLow (av sn iv rq il hit : Bool) : BitVec 8 :=
  BitVec.ofBool av ++ BitVec.ofBool sn ++ BitVec.ofBool iv ++ BitVec.ofBool rq ++ BitVec.ofBool il ++ BitVec.ofBool hit
    ++ 0#2

theorem dskKey_eq (ty : Half) (av sn iv rq il hit : Bool) :
    dskKey ty av sn iv rq il hit = ty ++ dskLow av sn iv rq il hit := by
  apply BitVec.eq_of_getLsbD_eq
  intro i hi
  simp only [dskKey, dskLow, BitVec.getLsbD_append]
  interval_cases i <;> rfl

theorem dskKey_row (ty c : Half) (av sn iv rq il hit : Bool) (m l : BitVec 8) :
    (dskKey ty av sn iv rq il hit &&& (0xFFFF#16 ++ m) = c ++ l) ↔ ty = c ∧ dskLow av sn iv rq il hit &&& m = l := by
  rw [dskKey_eq, append_and, append_eq_iff, show ty &&& 0xFFFF#16 = ty from BitVec.and_allOnes (x := ty)]

/-- The row of a decision key: the four tests of 42_decision.md R241, in its order. -/
theorem firstRow_dsk (p : Params) (hp : p.distinct) (ty : Half) (av sn iv rq il hit : Bool) :
    firstRow (dskRows p) (dskKey ty av sn iv rq il hit) = some
      (if ty = Config.etherArp ∧ av = true then
        if rq = true then (if il = true then .arpReply else .arpNonlocal) else .arpNoaction
       else if ty = p.srType ∧ sn = true then .srHop
       else if ty = Config.etherIpv4 ∧ iv = true then (if hit = true then .ipv4FwdHit else .ipv4FwdMiss)
       else .fallbackDrop) := by
  obtain ⟨h1, h2, h3⟩ := hp
  have k1 := dskKey_row ty Config.etherArp av sn iv rq il hit 0x98#8 0x98#8
  have k2 := dskKey_row ty Config.etherArp av sn iv rq il hit 0x98#8 0x90#8
  have k3 := dskKey_row ty Config.etherArp av sn iv rq il hit 0x90#8 0x80#8
  have k4 := dskKey_row ty p.srType av sn iv rq il hit 0x40#8 0x40#8
  have k5 := dskKey_row ty Config.etherIpv4 av sn iv rq il hit 0x24#8 0x24#8
  have k6 := dskKey_row ty Config.etherIpv4 av sn iv rq il hit 0x24#8 0x20#8
  have k7 : dskKey ty av sn iv rq il hit &&& 0x000000#24 = 0x000000#24 := BitVec.and_zero
  have l1 : ∀ av sn iv rq il hit, (dskLow av sn iv rq il hit &&& 0x98#8 = 0x98#8) ↔ av = true ∧ rq = true ∧ il = true := by decide
  have l2 : ∀ av sn iv rq il hit, (dskLow av sn iv rq il hit &&& 0x98#8 = 0x90#8) ↔ av = true ∧ rq = true ∧ il = false := by decide
  have l3 : ∀ av sn iv rq il hit, (dskLow av sn iv rq il hit &&& 0x90#8 = 0x80#8) ↔ av = true ∧ rq = false := by decide
  have l4 : ∀ av sn iv rq il hit, (dskLow av sn iv rq il hit &&& 0x40#8 = 0x40#8) ↔ sn = true := by decide
  have l5 : ∀ av sn iv rq il hit, (dskLow av sn iv rq il hit &&& 0x24#8 = 0x24#8) ↔ iv = true ∧ hit = true := by decide
  have l6 : ∀ av sn iv rq il hit, (dskLow av sn iv rq il hit &&& 0x24#8 = 0x20#8) ↔ iv = true ∧ hit = false := by decide
  rw [l1] at k1; rw [l2] at k2; rw [l3] at k3; rw [l4] at k4; rw [l5] at k5; rw [l6] at k6
  have m1 : (0xFFFF98#24 : BitVec 24) = 0xFFFF#16 ++ 0x98#8 := by decide
  have m2 : (0xFFFF90#24 : BitVec 24) = 0xFFFF#16 ++ 0x90#8 := by decide
  have m3 : (0xFFFF40#24 : BitVec 24) = 0xFFFF#16 ++ 0x40#8 := by decide
  have m4 : (0xFFFF24#24 : BitVec 24) = 0xFFFF#16 ++ 0x24#8 := by decide
  simp only [dskRows, firstRow, m1, m2, m3, m4, k1, k2, k3, k4, k5, k6, k7, if_true]
  by_cases a : ty = Config.etherArp
  · cases av <;> cases rq <;> cases il <;> simp [a, h2.symm, h3.symm]
  · by_cases b : ty = p.srType
    · cases sn <;> simp [b, h1, h2]
    · by_cases c : ty = Config.etherIpv4
      · cases iv <;> cases hit <;> simp [c, h1.symm, h3]
      · simp [a, b, c]

end Sys2Proof.Machine
end

