-- ==== Sys2Proof/Laws/Turns.lean ====
section
/-! SUPPORT. What the active instance's own step is in each stage: the operation its key selects, once for all the proofs about
steps. -/

namespace Sys2Proof.Machine

/-- With an empty agenda the turn is the active instance's own, and taking it off changes nothing. -/
theorem turnOf_of_nil {s : State} (h : s.agenda = []) : turnOf s = .own := by rw [turnOf, h]

theorem popTurn_of_nil {s : State} (h : s.agenda = []) : popTurn s = s := by
  cases s
  simp only at h
  subst h
  rfl

/-- A step is refused for equal EtherTypes, and else takes the first turn. -/
theorem step_of_distinct {s : State} (h : s.params.distinct) : step s = takeTurn (turnOf s) (popTurn s) := if_pos h

theorem step_own {s : State} (h : s.params.distinct) (ht : turnOf s = .own) : step s = ownStep (popTurn s) := by
  rw [step_of_distinct h, ht]
  rfl

/-- A next state comes only from distinct EtherTypes. -/
theorem distinct_of_step {s t : State} (h : step s = .next t) : s.params.distinct := by
  by_contra hd
  rw [step, stepTurn, if_neg hd] at h
  cases h

theorem decode_dskWord (p : Params) (k : BitVec 24) :
    decode p (dskWord k) = match firstRow (dskRows p) k with
      | some r => .ok r.op
      | none => .error .noRow := by
  have h : k.extractLsb' 16 8 ++ k.extractLsb' 8 8 ++ k.extractLsb' 0 8 = k := by
    apply BitVec.eq_of_getLsbD_eq
    intro i hi
    simp only [BitVec.getLsbD_append, BitVec.getLsbD_extractLsb']
    interval_cases i <;> rfl
  show (match rowOf (dskRows p) (.ok (k.extractLsb' 16 8 ++ k.extractLsb' 8 8 ++ k.extractLsb' 0 8)) with
    | .ok r => Except.ok r.op
    | .error e => .error e) = _
  rw [h, rowOf]
  cases firstRow (dskRows p) k <;> rfl

/-- The parser's own step: the overflow row first, else the operation of the parser state (30_encoding.md R120). -/
theorem ownStep_parse {s : State} (h : s.pipe.stage = .parse) :
    ownStep s = match s.pipe.pstate with
      | .start => exec .pStart s
      | .parseArp => exec .pArp s
      | .parseSr => if s.pipe.sr.len = 10 then exec .pSrOverflow s else exec .pSr s
      | .parseIpv4 => exec .pIpv4 s
      | .accept => exec .pAccept s
      | .reject => .fault .noSelectRow := by
  have hf : finishStage .parse = id := rfl
  have hid : ∀ o, onNext id o = o := by intro o; cases o <;> rfl
  have key : fetchOwn s =
      if pskKey (srFull s.pipe) s.pipe.pstate 0#16 &&& 0xF0000#20 = 0xA0000#20 then
        .word (pskWord fmtPskSelect (pskKey (srFull s.pipe) s.pipe.pstate 0#16))
      else .word (pskWord fmtPskState (pskKey (srFull s.pipe) s.pipe.pstate 0#16)) := by
    rw [fetchOwn, h]
  have hsel : ∀ full st, (pskKey full st 0#16 &&& 0xF0000#20 = 0xA0000#20) ↔ full = true ∧ st = .parseSr := by
    intro full st
    cases full <;> cases st <;> decide
  have hfull : srFull s.pipe = true ↔ s.pipe.sr.len = 10 := by
    rw [srFull]
    exact decide_eq_true_iff
  have hdec : ∀ full st, decode s.params (pskWord fmtPskState (pskKey full st 0#16)) = match st with
      | .start => .ok .pStart
      | .parseArp => .ok .pArp
      | .parseSr => .ok .pSr
      | .parseIpv4 => .ok .pIpv4
      | .accept => .ok .pAccept
      | .reject => .error .noRow := by
    intro full st
    cases full <;> cases st <;> rfl
  have hov : decode s.params (pskWord fmtPskSelect (pskKey true .parseSr 0#16)) = .ok .pSrOverflow := by
    show (match rowOf (pskSelectRows s.params) (.ok (pskKey true .parseSr 0#16)) with
      | .ok r => Except.ok r.op
      | .error e => .error e) = _
    have k1 : ∀ c : Half, ¬ (pskKey true .parseSr 0#16 &&& 0x7FFFF#20 = 0#4 ++ c) := by
      intro c hc
      rw [show (0x7FFFF#20 : BitVec 20) = 0x7#4 ++ 0xFFFF#16 by decide, pskKey_and, append_eq_iff] at hc
      exact absurd hc.1 (by decide)
    have k2 : ¬ (pskKey true .parseSr 0#16 &&& 0x70000#20 = 0x00000#20) := by decide
    have k3 : pskKey true .parseSr 0#16 &&& 0xF0000#20 = 0xA0000#20 := by decide
    simp only [rowOf, pskSelectRows, firstRow, k1, k2, k3, if_false, if_true]
    rfl
  rw [ownStep, key]
  by_cases hc : srFull s.pipe = true ∧ s.pipe.pstate = .parseSr
  · rw [if_pos ((hsel _ _).2 hc), hc.1, hc.2]
    dsimp only
    rw [hov, if_pos (hfull.1 hc.1), h, hf]
    exact hid _
  · rw [if_neg (fun h => hc ((hsel _ _).1 h))]
    dsimp only
    rw [hdec, h, hf]
    cases hp : s.pipe.pstate with
    | start => exact hid _
    | parseArp => exact hid _
    | parseSr =>
      rw [if_neg (fun h10 => hc ⟨hfull.2 h10, hp⟩)]
      exact hid _
    | parseIpv4 => exact hid _
    | accept => exact hid _
    | reject => rfl

/-- The decision stage's own step: DISPATCH, then the move to CSUM (42_decision.md R240). -/
theorem ownStep_decide {s : State} (h : s.pipe.stage = .decide) :
    ownStep s = match formDsk s with
      | .error f => .fault f
      | .ok k => match firstRow (dskRows s.params) k with
        | some r => onNext (fun t => setStage t .csum) (runDskRow r s).outcome
        | none => .fault .noSelectRow := by
  have hf : finishStage .decide = fun t => setStage t .csum := rfl
  rw [ownStep, fetchOwn, h]
  dsimp only
  cases formDsk s with
  | error f => rfl
  | ok k =>
    dsimp only
    rw [decode_dskWord]
    cases firstRow (dskRows s.params) k with
    | none => rfl
    | some r =>
      dsimp only
      rw [hf]
      cases r <;> rfl

/-- The checksum stage's own step: CSUM_UPDATE for a valid IPv4 header, then the move to DEPARSE (45_checksum.md R330). -/
theorem ownStep_csum {s : State} (h : s.pipe.stage = .csum) :
    ownStep s = if s.pipe.ipv4.valid = true then
        .next (setStage (setIpv4 s { s.pipe.ipv4 with checksum := checksumIpv4 s.pipe.ipv4 }) .deparse)
      else .next (setStage s .deparse) := by
  have hd : ∀ a b c d, decode s.params (vkWord fmtVkCsum
      (BitVec.ofBool a ++ BitVec.ofBool b ++ BitVec.ofBool c ++ BitVec.ofBool d))
        = if d = true then .ok .csumUpdate else .error .noRow := by
    intro a b c d
    cases a <;> cases b <;> cases c <;> cases d <;> rfl
  rw [ownStep, fetchOwn, h]
  dsimp only
  rw [formVk, hd]
  by_cases hv : s.pipe.ipv4.valid = true
  · rw [if_pos hv, if_pos hv]
    dsimp only
    rw [show exec .csumUpdate s = (doCsumUpdate s).outcome from rfl, doCsumUpdate, readIpv4_of_valid hv]
    rfl
  · rw [if_neg hv, if_neg hv]
    dsimp only
    rw [if_pos rfl]
    rfl

/-- The serializer's own step is DEPARSE (46_deparser.md R350). -/
theorem ownStep_deparse {s : State} (h : s.pipe.stage = .deparse) : ownStep s = exec .deparse s := by
  have hd : ∀ a b c d, decode s.params (vkWord fmtVkDeparse
      (BitVec.ofBool a ++ BitVec.ofBool b ++ BitVec.ofBool c ++ BitVec.ofBool d)) = .ok .deparse := by
    intro a b c d
    cases a <;> cases b <;> cases c <;> cases d <;> rfl
  rw [ownStep, fetchOwn, h]
  dsimp only
  rw [formVk, hd]
  dsimp only
  cases exec .deparse s <;> rfl

theorem ownStep_idle {s : State} (h : s.pipe.stage = .idle) : ownStep s = .refused .idle := by
  rw [ownStep, fetchOwn, h]

theorem ownStep_done {s : State} (h : s.pipe.stage = .done) : ownStep s = .refused .resultHeld := by
  rw [ownStep, fetchOwn, h]

end Sys2Proof.Machine
end

