-- ==== Sys2Proof/Laws/Decision.lean ====
section
/-! SUPPORT. The shared parts of the decision stage's paths: TTL_DEC, the type tag's rewrite, and what any path leaves alone. -/

namespace Sys2Proof.Machine

/-- TTL_DEC on a valid header, both ways at once (42_decision.md R251). -/
theorem doTtlDec_of_valid {s : State} (h : s.pipe.ipv4.valid = true) :
    doTtlDec s = if s.params.ttlZeroDrop && decide (s.pipe.ipv4.ttl.toNat ≤ 1) then .raised (enterDrop s .ttlExpired)
      else .go (setIpv4 s { s.pipe.ipv4 with ttl := s.pipe.ipv4.ttl - 1#8 }) := by
  rw [doTtlDec, readIpv4_of_valid h, withVal_ok]
  by_cases a : s.params.ttlZeroDrop = true <;> by_cases b : s.pipe.ipv4.ttl.toNat ≤ 1 <;> simp [a, b, raiseDrop]

/-- The rewrite of the type tag as one write of `hdr.eth` (43_source_route.md R281). -/
theorem retagIfLast_eq (e : SrEntry) (s : State) :
    retagIfLast e s
      = setEth s { s.pipe.eth with etype := if e.bos then Config.etherIpv4 else s.pipe.eth.etype } := by
  rw [retagIfLast]
  split <;> rfl

/-- SR_POP within the stack (43_source_route.md R282). -/
theorem doSrPop_of_le {s : State} (h1 : 1 ≤ s.pipe.sr.len) (h2 : s.pipe.sr.len ≤ 10) :
    doSrPop s = .go (setSr s { len := s.pipe.sr.len - 1, e := shiftEntries s.pipe.sr.len s.pipe.sr.e }) :=
  if_pos ⟨h1, h2⟩

/-- An entry register after the shift: the next one's value within the stack, its own elsewhere (43_source_route.md R282). -/
theorem shiftEntries_getElem? (n i : Nat) (e : Vector SrEntry 10) (hn : n ≤ 10) :
    (shiftEntries n e)[i]? = if i + 1 < n then e[i + 1]? else e[i]? := by
  by_cases h : i + 1 < n
  · rw [if_pos h]
    simp [shiftEntries, h, show i < 10 by omega, show i + 1 < 10 by omega]
  · rw [if_neg h]
    by_cases hi : i < 10
    · simp [shiftEntries, h, hi]
    · simp [hi]

end Sys2Proof.Machine
end

