-- ==== Sys2Proof/Laws/Deparser.lean ====
section
/-! SUPPORT. Appending to `OUT`: two emissions are one, and the emission of the source-route stack. -/

namespace Sys2Proof.Machine

theorem emit_nil (s : State) : emit s [] = s := by
  rw [emit, appendBytes_nil]
  rfl

/-- Emitting twice is emitting the two byte sequences one after the other. -/
theorem emit_emit (s : State) (xs ys : List Byte) : emit (emit s xs) ys = emit s (xs ++ ys) := by
  rw [emit, emit, emit, ← appendBytes_append]
  rfl

/-- EMIT_SR of the `k` entries from `i` on (46_deparser.md R353). -/
theorem doEmitEntries_eq (s : State) (i k : Nat) (h : i + k ≤ s.pipe.sr.len) (h10 : s.pipe.sr.len ≤ 10) :
    doEmitEntries s i k = .go (emit s (((s.pipe.sr.e.toList.drop i).take k).flatMap srBytes)) := by
  induction k generalizing s i with
  | zero => rw [doEmitEntries, List.take_zero, List.flatMap_nil, emit_nil]
  | succ k ih =>
    have hi : i < 10 := by omega
    rw [doEmitEntries, doEmitSr, doEncSr, readEntry_of_lt (by omega) hi, withVal_ok, andThen_go,
      ih (emit s _) (i + 1) (by simp only [emit, State.setPipe_pipe]; omega) h10, emit_emit]
    have hd : s.pipe.sr.e.toList.drop i = s.pipe.sr.e[i] :: s.pipe.sr.e.toList.drop (i + 1) := by
      rw [List.drop_eq_getElem_cons (by simpa using hi)]
      simp
    rw [hd, List.take_succ_cons, List.flatMap_cons]
    rfl

/-- EMIT_PAYLOAD in a frame in canonical form (46_deparser.md R356). -/
theorem doEmitPayload_of_wf {s : State} (hw : s.pipe.inBuf.wf) (hp : s.pipe.payloadSet = true) :
    doEmitPayload s = .go (emit s ((contents s.pipe.inBuf).drop s.pipe.payloadOff)) := by
  rw [doEmitPayload, readPayloadOff, if_pos hp, withVal_ok, readBytes_rest_of_wf hw]

/-- A header that is emitted when it is valid. -/
theorem emit_if (s : State) (v : Bool) (x : Flow) (bs : List Byte) (h : v = true → x = .go (emit s bs)) :
    (if v = true then x else .go s) = .go (emit s (if v = true then bs else [])) := by
  cases v with
  | true => exact h rfl
  | false =>
    rw [if_neg (by decide), if_neg (by decide), emit_nil]

end Sys2Proof.Machine
end

