-- ==== Sys2Proof/Laws/Routes.lean ====
section
/-! SUPPORT. The prefix mask, the longest match, and the places of a table's entries. -/

namespace Sys2Proof.Machine

/-- The bits of a mask: the top `l` are 1 (44_lpm.md R301). -/
theorem prefixMask_bit (l j : Nat) (hj : j < 32) : (prefixMask l).getLsbD j = decide (32 - l ≤ j) := by
  rw [prefixMask]
  split
  · subst l
    rw [BitVec.getLsbD_zero, decide_eq_false (by omega)]
  · rw [BitVec.getLsbD_shiftLeft]
    have h : (0xFFFFFFFF#32).getLsbD (j - (32 - l)) = true := by
      rw [show 0xFFFFFFFF#32 = BitVec.allOnes 32 by decide, BitVec.getLsbD_allOnes]
      exact decide_eq_true (by omega)
    rw [h]
    by_cases c : 32 - l ≤ j
    · simp [hj, c]
    · simp [hj, c]
      omega

/-- Two masked addresses are equal exactly when their top bits agree. -/
theorem masked_eq_iff (l : Nat) (a b : Ip) : a &&& prefixMask l = b &&& prefixMask l ↔ agreeOnTop l a b := by
  constructor
  · intro h j h1 h2
    have := congrArg (fun x => x.getLsbD j) h
    simpa [prefixMask_bit l j h2, h1] using this
  · intro h
    apply BitVec.eq_of_getLsbD_eq
    intro j hj
    rw [BitVec.getLsbD_and, BitVec.getLsbD_and, prefixMask_bit l j hj]
    by_cases c : 32 - l ≤ j
    · rw [h j c hj]
    · simp [c]

theorem hits_iff (e : FtEntry) (a : Ip) : e.hits a = true ↔ matchesAddr e a := by
  simp [FtEntry.hits, matchesAddr, masked_eq_iff]

/-- The longest match: none when nothing matches, else a matching entry that no matching entry is longer than. -/
theorem longestMatch_spec (a : Ip) (ft : List FtEntry) :
    (longestMatch a ft = none → ∀ e ∈ ft, e.hits a = false)
      ∧ ∀ e, longestMatch a ft = some e → e ∈ ft ∧ e.hits a = true
          ∧ ∀ f ∈ ft, f.hits a = true → f.plen.toNat ≤ e.plen.toNat := by
  induction ft with
  | nil => simp [longestMatch]
  | cons x xs ih =>
    obtain ⟨ihn, ihs⟩ := ih
    rw [longestMatch]
    by_cases hx : x.hits a = true
    · rw [if_pos hx]
      cases hm : longestMatch a xs with
      | none =>
        refine ⟨fun h => (Option.some_ne_none _ h).elim, fun e he => ?_⟩
        obtain rfl : x = e := Option.some.inj he
        refine ⟨List.mem_cons_self, hx, fun f hf hfa => ?_⟩
        rcases List.mem_cons.1 hf with rfl | hf
        · exact Nat.le_refl _
        · rw [ihn hm f hf] at hfa
          exact absurd hfa (by decide)
      | some y =>
        obtain ⟨y1, y2, y3⟩ := ihs y hm
        dsimp only
        split
        · rename_i hlt
          refine ⟨fun h => (Option.some_ne_none _ h).elim, fun e he => ?_⟩
          obtain rfl : y = e := Option.some.inj he
          refine ⟨List.mem_cons_of_mem _ y1, y2, fun f hf hfa => ?_⟩
          rcases List.mem_cons.1 hf with rfl | hf
          · omega
          · exact y3 f hf hfa
        · rename_i hlt
          refine ⟨fun h => (Option.some_ne_none _ h).elim, fun e he => ?_⟩
          obtain rfl : x = e := Option.some.inj he
          refine ⟨List.mem_cons_self, hx, fun f hf hfa => ?_⟩
          rcases List.mem_cons.1 hf with rfl | hf
          · exact Nat.le_refl _
          · have := y3 f hf hfa
            omega
    · rw [if_neg hx]
      refine ⟨fun h e he => ?_, fun e he => ?_⟩
      · rcases List.mem_cons.1 he with rfl | he
        · simpa using hx
        · exact ihn h e he
      · obtain ⟨e1, e2, e3⟩ := ihs e he
        refine ⟨List.mem_cons_of_mem _ e1, e2, fun f hf hfa => ?_⟩
        rcases List.mem_cons.1 hf with rfl | hf
        · exact absurd hfa hx
        · exact e3 f hf hfa

theorem longestMatch_eq_none_iff (a : Ip) (ft : List FtEntry) :
    longestMatch a ft = none ↔ ∀ e ∈ ft, e.hits a = false := by
  refine ⟨(longestMatch_spec a ft).1, fun h => ?_⟩
  cases hm : longestMatch a ft with
  | none => rfl
  | some e =>
    obtain ⟨h1, h2, -⟩ := (longestMatch_spec a ft).2 e hm
    rw [h e h1] at h2
    exact absurd h2 (by decide)

/-- Two entries of one length that match one address have one key (44_lpm.md R303). -/
theorem ftKey_eq_of_hits {e f : FtEntry} {a : Ip} (he : e.hits a = true) (hf : f.hits a = true) (h : e.plen = f.plen) :
    ftKey e.pfx e.plen = ftKey f.pfx f.plen := by
  simp only [FtEntry.hits, Bool.and_eq_true, decide_eq_true_eq] at he hf
  rw [ftKey, ftKey, ← h, ← he.2]
  rw [← h] at hf
  rw [hf.2]

/-- In a table with one entry per key, the key tells the entry (44_lpm.md R303). -/
theorem eq_of_ftKey_eq {ft : List FtEntry} (hu : ft.Pairwise fun x y => ftKey x.pfx x.plen ≠ ftKey y.pfx y.plen)
    {e f : FtEntry} (he : e ∈ ft) (hf : f ∈ ft) (h : ftKey e.pfx e.plen = ftKey f.pfx f.plen) : e = f := by
  induction ft with
  | nil => cases he
  | cons x xs ih =>
    obtain ⟨hx, hxs⟩ := List.pairwise_cons.1 hu
    rcases List.mem_cons.1 he with rfl | he'
    · rcases List.mem_cons.1 hf with rfl | hf'
      · rfl
      · exact absurd h (hx f hf')
    · rcases List.mem_cons.1 hf with rfl | hf'
      · exact absurd h.symm (hx e he')
      · exact ih hxs he' hf'

/-- In a table with one entry per key, an entry of the table that matches and that no matching entry is longer than is the
longest match. -/
theorem longestMatch_eq_some {a : Ip} {ft : List FtEntry} {e : FtEntry}
    (hu : ft.Pairwise fun x y => ftKey x.pfx x.plen ≠ ftKey y.pfx y.plen) (h1 : e ∈ ft) (h2 : e.hits a = true)
    (h3 : ∀ f ∈ ft, f.hits a = true → f.plen.toNat ≤ e.plen.toNat) : longestMatch a ft = some e := by
  cases hm : longestMatch a ft with
  | none =>
    rw [(longestMatch_spec a ft).1 hm e h1] at h2
    exact absurd h2 (by decide)
  | some y =>
    obtain ⟨y1, y2, y3⟩ := (longestMatch_spec a ft).2 y hm
    have hl : y.plen = e.plen := BitVec.eq_of_toNat_eq (Nat.le_antisymm (h3 y y1 y2) (y3 e h1 h2))
    have hk := ftKey_eq_of_hits y2 h2 hl
    rw [eq_of_ftKey_eq hu y1 h1 hk]

/-- In a table whose entries are all valid, an entry goes into the first unlisted register, if there is one. -/
theorem putFree_of_valid (new : FtEntry) (room : Nat) (ft : List FtEntry) (hv : ∀ e ∈ ft, e.valid = true) :
    putFree new room ft = if ft.length < room then some (ft ++ [new]) else none := by
  induction ft generalizing room with
  | nil => simp [putFree]
  | cons e es ih =>
    rw [putFree, if_pos (hv e List.mem_cons_self), ih (room - 1) fun x hx => hv x (List.mem_cons_of_mem _ hx)]
    by_cases h : es.length < room - 1
    · rw [if_pos h, if_pos (by simp only [List.length_cons]; omega)]
      rfl
    · rw [if_neg h, if_neg (by simp only [List.length_cons]; omega)]
      rfl

theorem hasKey_of_valid {e : FtEntry} (h : e.valid = true) (k : Ip × BitVec 6) :
    hasKey k e = decide (ftKey e.pfx e.plen = k) := by
  rw [hasKey, h, Bool.true_and]

end Sys2Proof.Machine
end

