-- ==== Sys2Proof/Laws/Invariant.lean ====
section
/-! SUPPORT. The invariant of Safety.lean under the operations that several kinds of turn share. -/

namespace Sys2Proof.Machine

/-- The checksum does not depend on the checksum field it replaces (45_checksum.md R331). -/
theorem checksumIpv4_update (i : Ipv4) (c : Half) : checksumIpv4 { i with checksum := c } = checksumIpv4 i := by
  rw [checksumIpv4, checksumIpv4, checksumOf, checksumOf, wordsOf_ipv4Bytes, wordsOf_ipv4Bytes]
  rfl

/-- A frame whose result has been taken, or an instance that has nothing to do. -/
theorem pipeInv_idle {c : Params} {p : Pipe} (h : pipeInv c p) : pipeInv c { p with stage := .idle } := by
  refine ⟨h.1, ?_, ?_, ?_, ?_, ?_⟩ <;> intro h <;> cases h

/-- Parse-error entry keeps the invariant of a frame that has emitted nothing (60_exceptions.md R376). -/
theorem pipeInv_parseError {c : Params} {p : Pipe} {e : Cause} (he : e ≠ .none) (h : pipeInv c p) (ho : p.outBuf = []) :
    pipeInv c { p with pstate := .reject, err := e, drop := true, stage := .done } := by
  refine ⟨h.1, ?_, ?_, ?_, ?_, ?_⟩ <;> intro hs <;> try (cases hs; done)
  exact ⟨⟨by simp [he], .inl rfl⟩, fun _ => ho⟩

/-- Block reset gives every instance the invariant (70_reset_and_hazards.md R400). -/
theorem pipeInv_reset (c : Params) (p : Pipe) : pipeInv c (resetPipe p) := by
  refine ⟨⟨rfl, rfl, Nat.le_refl _, by intro o ho; cases ho⟩, ?_, ?_, ?_, ?_, ?_⟩ <;> intro h <;> cases h

/-- Per-frame initialisation gives the invariant, whatever the instance held (70_reset_and_hazards.md R402). -/
theorem pipeInv_startFrame (c : Params) (p : Pipe) (bytes : List Byte) (port : Port) (draw : Nat)
    (h : port ≠ Config.noPort) : pipeInv c (startFrame p bytes port draw) := by
  refine ⟨⟨bufferOf_wf bytes, rfl, Nat.zero_le _, by intro o ho; cases ho⟩, ?_, ?_, ?_, ?_, ?_⟩ <;>
    intro hs <;> try (cases hs; done)
  refine ⟨⟨rfl, rfl, rfl, rfl, rfl, h⟩, rfl, ?_⟩
  refine ⟨fun _ => ⟨rfl, rfl, rfl, rfl, rfl⟩, ?_, ?_, ?_, ?_, ?_⟩ <;> (intro hp; cases hp)

/-- A replaced snapshot that a frame in flight may still read (20_memory.md R90). -/
theorem pipeInv_supersede {c : Params} {p : Pipe} {o : Snapshot} (ho : tableOk o.ft) (h : pipeInv c p) :
    pipeInv c (p.supersede o) := by
  rcases supersede_cases p o with e | e <;> rw [e]
  · exact h
  · refine ⟨⟨h.1.1, h.1.2.1, h.1.2.2.1, fun q hq => ?_⟩, h.2⟩
    rcases List.mem_cons.1 hq with rfl | hq
    · exact ho
    · exact h.1.2.2.2 q hq

/-- Publishing a table of legal entries keeps the machine's invariant (20_memory.md R89). -/
theorem machineInv_publish {s : State} {c : Snapshot} (hc : tableOk c.ft) (h : machineInv s) :
    machineInv (publish s c) := by
  refine ⟨h.1, hc, pipeInv_supersede h.2.1 h.2.2.1, fun p hp => ?_⟩
  simp only [publish, List.mem_map] at hp
  obtain ⟨q, hq, rfl⟩ := hp
  exact pipeInv_supersede h.2.1 (h.2.2.2 q hq)

end Sys2Proof.Machine
end

