-- ==== Sys2Proof/Laws/PerInstr.lean ====
section
/-! SUPPORT. The family EncodedFormat: every operation's word begins with the format byte of its row, and no other. -/

namespace Sys2Proof.Laws.EncodedFormat

/-- The format column of an operation's row in 30_encoding.md R123. -/
def formatOf : Instr → Byte
  | .pStart | .pArp | .pSr | .pIpv4 | .pAccept => fmtPskState
  | .pStartSelArp | .pStartSelSr | .pStartSelIpv4 | .pStartSelOther | .pSrOverflow | .pSrSelBos1
  | .pSrSelBos0 => fmtPskSelect
  | .decEth | .decArp | .decSr | .decIpv4 | .encEth | .encArp | .encSr _ | .encIpv4 => fmtLayout
  | .arpReply | .arpNonlocal | .arpNoaction | .srHop | .ipv4FwdHit | .ipv4FwdMiss | .fallbackDrop => fmtDsk
  | .dispatch | .lasMember _ | .lpmLookup _ | .srPop | .ttlDec | .csumCompute => fmtSubop
  | .csumUpdate => fmtVkCsum
  | .deparse => fmtVkDeparse
  | .emitEth | .emitArp | .emitSr _ | .emitIpv4 | .emitPayload => fmtVkEmit
  | .egressVerdict => fmtState
  | .ingress _ _ | .egress | .ftInstall _ _ _ _ | .lasConfigure _ _ _ => fmtHost

/-- Under every parameter set the word of an operation is its row's format byte and the bytes of its key or operands. -/
def Statement (i : Instr) : Prop := ∀ p : Params, ∃ rest : List Byte, encode p i = formatOf i :: rest

theorem pStart : Statement .pStart := fun _ => ⟨_, rfl⟩
theorem pStartSelArp : Statement .pStartSelArp := fun _ => ⟨_, rfl⟩
theorem pStartSelSr : Statement .pStartSelSr := fun _ => ⟨_, rfl⟩
theorem pStartSelIpv4 : Statement .pStartSelIpv4 := fun _ => ⟨_, rfl⟩
theorem pStartSelOther : Statement .pStartSelOther := fun _ => ⟨_, rfl⟩
theorem pArp : Statement .pArp := fun _ => ⟨_, rfl⟩
theorem pSr : Statement .pSr := fun _ => ⟨_, rfl⟩
theorem pSrOverflow : Statement .pSrOverflow := fun _ => ⟨_, rfl⟩
theorem pSrSelBos1 : Statement .pSrSelBos1 := fun _ => ⟨_, rfl⟩
theorem pSrSelBos0 : Statement .pSrSelBos0 := fun _ => ⟨_, rfl⟩
theorem pIpv4 : Statement .pIpv4 := fun _ => ⟨_, rfl⟩
theorem pAccept : Statement .pAccept := fun _ => ⟨_, rfl⟩
theorem decEth : Statement .decEth := fun _ => ⟨_, rfl⟩
theorem decArp : Statement .decArp := fun _ => ⟨_, rfl⟩
theorem decSr : Statement .decSr := fun _ => ⟨_, rfl⟩
theorem decIpv4 : Statement .decIpv4 := fun _ => ⟨_, rfl⟩
theorem arpReply : Statement .arpReply := fun _ => ⟨_, rfl⟩
theorem arpNonlocal : Statement .arpNonlocal := fun _ => ⟨_, rfl⟩
theorem arpNoaction : Statement .arpNoaction := fun _ => ⟨_, rfl⟩
theorem srHop : Statement .srHop := fun _ => ⟨_, rfl⟩
theorem ipv4FwdHit : Statement .ipv4FwdHit := fun _ => ⟨_, rfl⟩
theorem ipv4FwdMiss : Statement .ipv4FwdMiss := fun _ => ⟨_, rfl⟩
theorem fallbackDrop : Statement .fallbackDrop := fun _ => ⟨_, rfl⟩
theorem dispatch : Statement .dispatch := fun _ => ⟨_, rfl⟩
theorem lasMember (a : Ip) : Statement (.lasMember a) := fun _ => ⟨_, rfl⟩
theorem lpmLookup (a : Ip) : Statement (.lpmLookup a) := fun _ => ⟨_, rfl⟩
theorem srPop : Statement .srPop := fun _ => ⟨_, rfl⟩
theorem ttlDec : Statement .ttlDec := fun _ => ⟨_, rfl⟩
theorem csumUpdate : Statement .csumUpdate := fun _ => ⟨_, rfl⟩
theorem csumCompute : Statement .csumCompute := fun _ => ⟨_, rfl⟩
theorem deparse : Statement .deparse := fun _ => ⟨_, rfl⟩
theorem emitEth : Statement .emitEth := fun _ => ⟨_, rfl⟩
theorem emitArp : Statement .emitArp := fun _ => ⟨_, rfl⟩
theorem emitSr (i : BitVec 4) : Statement (.emitSr i) := fun _ => ⟨_, rfl⟩
theorem emitIpv4 : Statement .emitIpv4 := fun _ => ⟨_, rfl⟩
theorem emitPayload : Statement .emitPayload := fun _ => ⟨_, rfl⟩
theorem egressVerdict : Statement .egressVerdict := fun _ => ⟨_, rfl⟩
theorem encEth : Statement .encEth := fun _ => ⟨_, rfl⟩
theorem encArp : Statement .encArp := fun _ => ⟨_, rfl⟩
theorem encSr (i : BitVec 4) : Statement (.encSr i) := fun _ => ⟨_, rfl⟩
theorem encIpv4 : Statement .encIpv4 := fun _ => ⟨_, rfl⟩
theorem ingress (bytes : List Byte) (port : Port) : Statement (.ingress bytes port) := fun _ => ⟨_, rfl⟩
theorem egress : Statement .egress := fun _ => ⟨_, rfl⟩
theorem ftInstall (pfx : Ip) (plen : BitVec 8) (port : Port) (mac : Mac) : Statement (.ftInstall pfx plen port mac) := fun _ => ⟨_, rfl⟩
theorem lasConfigure (a0 a1 a2 : Option Ip) : Statement (.lasConfigure a0 a1 a2) := fun _ => ⟨_, rfl⟩

end Sys2Proof.Laws.EncodedFormat
end

