-- ==== Sys2Proof/Tests/Slice0.lean ====
section
/-! SUPPORT. Small tests on fixed values, taken from the encodings of 30_encoding.md and the vectors of 95_test_vectors.md, and
for each statement with hypotheses a state that meets them (Tests/Witnesses.lean). -/

namespace Sys2Proof.Tests

open Sys2Proof.Machine

/-! ## Helpers -/

/-- What is true of the next state of an outcome; false of a stop. -/
def nextIs (o : Host.Outcome State Fault Refusal) (f : State → Bool) : Bool :=
  match o with
  | .next t => f t
  | .fault _ => false
  | .refused _ => false

/-- The outcome is this fault. -/
def isFault (o : Host.Outcome State Fault Refusal) (f : Fault) : Bool :=
  match o with
  | .next _ => false
  | .fault g => decide (g = f)
  | .refused _ => false

/-- The outcome is this refusal. -/
def isRefused (o : Host.Outcome State Fault Refusal) (r : Refusal) : Bool :=
  match o with
  | .next _ => false
  | .fault _ => false
  | .refused q => decide (q = r)

/-- The reset state with another per-frame state of its one instance. -/
def withPipe (p : Pipe) : State := State.reset.setPipe p

/-- An instance in PARSE with a frame that came in on port 3 (70_reset_and_hazards.md R402). -/
def parsing (bytes : List Byte) : Pipe := startFrame Pipe.reset bytes 3 0

/-- `E(t)` of 95_test_vectors.md section 3, as bytes. -/
def ethOf (t0 t1 : Byte) : List Byte := [0x01, 0x02, 0x03, 0x04, 0x05, 0x06, 0x0A, 0x0B, 0x0C, 0x0D, 0x0E, 0x0F, t0, t1]

/-- The ArpMessage of vector CO2, as bytes. -/
def arpCo2 : List Byte :=
  [0x00, 0x01, 0x08, 0x00, 0x06, 0x04, 0x00, 0x01, 0xBB, 0xBB, 0xBB, 0xBB, 0xBB, 0xBB, 0x0A, 0x00, 0x01, 0x01,
    0x00, 0x00, 0x00, 0x00, 0x00, 0x00, 0x0A, 0x00, 0x01, 0x0A]

/-- The IPv4 header of vector CO9, as bytes. -/
def ipv4Co9 : List Byte :=
  [0x45, 0x00, 0x00, 0x54, 0x00, 0x00, 0x40, 0x00, 0x40, 0x01, 0xB7, 0xFA, 0xC0, 0xA8, 0x00, 0x01, 0xC0, 0x00, 0x02,
    0x05]

/-- The Ethernet header of vector CO1. -/
def eth1 (t : Half) : Eth := { valid := true, dst := 0x010203040506, src := 0x0A0B0C0D0E0F, etype := t }

/-- The ArpMessage of vector CO2. -/
def arp1 : Arp :=
  { valid := true, htype := 1, ptype := 0x0800, hlen := 6, plen := 4, oper := 1, sha := 0xBBBBBBBBBBBB, spa := 0x0A000101,
    tha := 0, tpa := 0x0A00010A }

/-- The IPv4 header of vector CO9. -/
def ip1 : Ipv4 :=
  { valid := true, version := 4, ihl := 5, tos := 0, totalLen := 84, ident := 0, flags := 2, fragOff := 0, ttl := 64,
    protocol := 1, checksum := 0xB7FA, src := 0xC0A80001, dst := 0xC0000205 }

/-- A stack with these entries first. -/
def stackOf (n : Nat) (e0 e1 : SrEntry) (rest : SrEntry) : SrStack :=
  { len := n, e := #v[e0, e1, rest, rest, rest, rest, rest, rest, rest, rest] }

/-! ## WellFormed refuses what it checks -/

theorem test_emitSr_index_nine_is_well_formed : (Instr.emitSr 9).wellFormed = true := by decide
theorem test_emitSr_index_ten_is_ill_formed : (Instr.emitSr 10).wellFormed = false := by decide
theorem test_encSr_index_nine_is_well_formed : (Instr.encSr 9).wellFormed = true := by decide
theorem test_encSr_index_fifteen_is_ill_formed : (Instr.encSr 15).wellFormed = false := by decide
theorem test_default_etherTypes_are_distinct : Params.default.distinct := by decide
theorem test_equal_etherTypes_are_refused :
    ¬ ({ Params.default with srType := 0x0800 } : Params).distinct := by decide

/-! ## Decoding: each row's word written out from the match column of 30_encoding.md R123 -/

/-- What the decoder reads under the default parameters. -/
def reads (w : List Byte) (i : Instr) : Bool := decide (decode Params.default w = .ok i)

theorem test_decode_pStart : reads [0x00, 0x00, 0x08, 0x00] .pStart = true := by decide
theorem test_decode_pArp : reads [0x00, 0x34, 0x12, 0x09] .pArp = true := by decide
theorem test_decode_pSr : reads [0x00, 0x05, 0x80, 0x02] .pSr = true := by decide
theorem test_decode_pIpv4 : reads [0x00, 0x00, 0x00, 0x03] .pIpv4 = true := by decide
theorem test_decode_pAccept : reads [0x00, 0x00, 0x00, 0x0C] .pAccept = true := by decide
theorem test_decode_pStartSelArp : reads [0x01, 0x06, 0x08, 0x08] .pStartSelArp = true := by decide
theorem test_decode_pStartSelSr : reads [0x01, 0x34, 0x12, 0x00] .pStartSelSr = true := by decide
theorem test_decode_pStartSelIpv4 : reads [0x01, 0x00, 0x08, 0x00] .pStartSelIpv4 = true := by decide
theorem test_decode_pStartSelOther : reads [0x01, 0xDD, 0x86, 0x00] .pStartSelOther = true := by decide
theorem test_decode_pSrOverflow : reads [0x01, 0x05, 0x80, 0x0A] .pSrOverflow = true := by decide
theorem test_decode_pSrSelBos1 : reads [0x01, 0x0A, 0x80, 0x02] .pSrSelBos1 = true := by decide
theorem test_decode_pSrSelBos0 : reads [0x01, 0xFF, 0x7F, 0x02] .pSrSelBos0 = true := by decide
theorem test_decode_decEth : reads [0x02, 0x00] .decEth = true := by decide
theorem test_decode_decArp : reads [0x02, 0x01] .decArp = true := by decide
theorem test_decode_decSr : reads [0x02, 0x02] .decSr = true := by decide
theorem test_decode_decIpv4 : reads [0x02, 0x03] .decIpv4 = true := by decide
theorem test_decode_encEth : reads [0x02, 0x04] .encEth = true := by decide
theorem test_decode_encArp : reads [0x02, 0x05] .encArp = true := by decide
theorem test_decode_encSr : reads [0x02, 0x06, 0x09] (.encSr 9) = true := by decide
theorem test_decode_encIpv4 : reads [0x02, 0x07] .encIpv4 = true := by decide
theorem test_decode_arpReply : reads [0x03, 0x98, 0x06, 0x08] .arpReply = true := by decide
theorem test_decode_arpNonlocal : reads [0x03, 0x90, 0x06, 0x08] .arpNonlocal = true := by decide
theorem test_decode_arpNoaction : reads [0x03, 0x80, 0x06, 0x08] .arpNoaction = true := by decide
theorem test_decode_srHop : reads [0x03, 0x60, 0x34, 0x12] .srHop = true := by decide
theorem test_decode_ipv4FwdHit : reads [0x03, 0x24, 0x00, 0x08] .ipv4FwdHit = true := by decide
theorem test_decode_ipv4FwdMiss : reads [0x03, 0x20, 0x00, 0x08] .ipv4FwdMiss = true := by decide
theorem test_decode_fallbackDrop : reads [0x03, 0x00, 0xDD, 0x86] .fallbackDrop = true := by decide
theorem test_decode_dispatch : reads [0x04, 0x00] .dispatch = true := by decide
theorem test_decode_lasMember : reads [0x04, 0x01, 0x0A, 0x00, 0x01, 0x0A] (.lasMember 0x0A00010A) = true := by decide
theorem test_decode_lpmLookup : reads [0x04, 0x02, 0xC0, 0x00, 0x02, 0x05] (.lpmLookup 0xC0000205) = true := by decide
theorem test_decode_srPop : reads [0x04, 0x03] .srPop = true := by decide
theorem test_decode_ttlDec : reads [0x04, 0x04] .ttlDec = true := by decide
theorem test_decode_csumCompute : reads [0x04, 0x05] .csumCompute = true := by decide
theorem test_decode_csumUpdate : reads [0x05, 0x0B] .csumUpdate = true := by decide
theorem test_decode_deparse : reads [0x06, 0x0F] .deparse = true := by decide
theorem test_decode_emitEth : reads [0x07, 0x0B] .emitEth = true := by decide
theorem test_decode_emitArp : reads [0x07, 0x04] .emitArp = true := by decide
theorem test_decode_emitSr : reads [0x07, 0x03, 0x09] (.emitSr 9) = true := by decide
theorem test_decode_emitIpv4 : reads [0x07, 0x01] .emitIpv4 = true := by decide
theorem test_decode_emitPayload : reads [0x07, 0x00] .emitPayload = true := by decide
theorem test_decode_egressVerdict : reads [0x08] .egressVerdict = true := by decide
theorem test_decode_ingress : reads [0x09, 0x00, 0x00, 0x03, 0xAA, 0xBB] (.ingress [0xAA, 0xBB] 3) = true := by decide
theorem test_decode_egress : reads [0x09, 0x01] .egress = true := by decide
theorem test_decode_ftInstall :
    reads [0x09, 0x02, 0xC0, 0x00, 0x02, 0x00, 0x18, 0x00, 0x05, 0xCC, 0xCC, 0xCC, 0xCC, 0xCC, 0xCD]
      (.ftInstall 0xC0000200 24 5 0xCCCCCCCCCCCD) = true := by decide
theorem test_decode_lasConfigure :
    reads [0x09, 0x03, 0x01, 0x0A, 0x00, 0x01, 0x0A, 0x00, 0x01, 0x0A, 0x00, 0x02, 0x0A]
      (.lasConfigure (some 0x0A00010A) none (some 0x0A00020A)) = true := by decide

theorem test_decode_refuses_no_bytes : decode Params.default [] = .error .empty := by decide
theorem test_decode_refuses_an_unknown_format : decode Params.default [0x0A] = .error .unknownFormat := by decide
theorem test_decode_refuses_the_reject_state : decode Params.default [0x00, 0x00, 0x00, 0x05] = .error .noRow := by decide
theorem test_decode_refuses_bits_above_the_key :
    decode Params.default [0x00, 0x00, 0x00, 0x10] = .error .reservedKeyBits := by decide
theorem test_decode_refuses_an_unknown_call : decode Params.default [0x09, 0x04] = .error .unknownSelector := by decide
theorem test_decode_refuses_entry_ten : decode Params.default [0x02, 0x06, 0x0A] = .error .badIndex := by decide
theorem test_table_word_of_pIpv4 : decodeTableWord 24 0x30000 = some .pIpv4 := by decide
theorem test_table_word_of_srHop : decodeTableWord 24 0x123440 = some .srHop := by decide

/-! ## The codec (95_test_vectors.md section 2) -/

theorem test_decEth_co1 : nextIs (exec .decEth (withPipe (parsing (ethOf 0x86 0xDD))))
    (fun t => decide (t.pipe.eth = eth1 0x86DD ∧ t.pipe.cur = 14)) = true := by decide
theorem test_decEth_co12_thirteen_bytes : nextIs (exec .decEth (withPipe (parsing ((ethOf 0x86 0xDD).take 13))))
    (fun t => decide (t.pipe.err = .truncatedHeader ∧ t.pipe.cur = 0 ∧ t.pipe.stage = .done)) = true := by decide
theorem test_decArp_co2 : nextIs (exec .decArp (withPipe (parsing arpCo2)))
    (fun t => decide (t.pipe.arp = arp1 ∧ t.pipe.cur = 28)) = true := by decide
theorem test_decSr_co8 : nextIs (exec .decSr (withPipe (parsing [0x01, 0x2C])))
    (fun t => decide (t.pipe.sr.len = 1 ∧ t.pipe.sr.e[0] = { bos := false, port := 300 })) = true := by decide
theorem test_decSr_co13_one_byte : nextIs (exec .decSr (withPipe (parsing [0x80])))
    (fun t => decide (t.pipe.err = .truncatedHeader ∧ t.pipe.sr.len = 0)) = true := by decide
theorem test_decIpv4_co9 : nextIs (exec .decIpv4 (withPipe (parsing ipv4Co9)))
    (fun t => decide (t.pipe.ipv4 = ip1 ∧ t.pipe.cur = 20)) = true := by decide
theorem test_decIpv4_co10 : nextIs (exec .decIpv4 (withPipe (parsing
      [0x46, 0xB8, 0xFF, 0xFF, 0x12, 0x34, 0xFF, 0xFF, 0x00, 0x11, 0xAB, 0xCD, 0x0A, 0x00, 0x00, 0x01, 0x0A, 0x00, 0x00,
        0x02])))
    (fun t => decide (t.pipe.ipv4.ihl = 6 ∧ t.pipe.ipv4.flags = 7 ∧ t.pipe.ipv4.fragOff = 0x1FFF ∧ t.pipe.ipv4.ttl = 0))
      = true := by decide
theorem test_encEth_co1 : nextIs (exec .encEth (withPipe { Pipe.reset with eth := eth1 0x86DD }))
    (fun t => decide (contents t.pipe.outBuf = ethOf 0x86 0xDD)) = true := by decide
theorem test_encArp_co2 : nextIs (exec .encArp (withPipe { Pipe.reset with arp := arp1 }))
    (fun t => decide (contents t.pipe.outBuf = arpCo2)) = true := by decide
theorem test_encSr_co7 : nextIs (exec (.encSr 1) (withPipe { Pipe.reset with sr := stackOf 2 ⟨false, 0⟩ ⟨true, 0x7FFF⟩ ⟨false, 1⟩ }))
    (fun t => decide (contents t.pipe.outBuf = [0xFF, 0xFF])) = true := by decide
theorem test_encIpv4_co9 : nextIs (exec .encIpv4 (withPipe { Pipe.reset with ipv4 := ip1 }))
    (fun t => decide (contents t.pipe.outBuf = ipv4Co9)) = true := by decide
theorem test_emitEth_co1 : nextIs (exec .emitEth (withPipe { Pipe.reset with eth := eth1 0x86DD }))
    (fun t => decide (contents t.pipe.outBuf = ethOf 0x86 0xDD)) = true := by decide
theorem test_emitArp_appends : nextIs (exec .emitArp (withPipe { Pipe.reset with arp := arp1, outBuf := bufferOf [0x77] }))
    (fun t => decide (contents t.pipe.outBuf = 0x77 :: arpCo2)) = true := by decide
theorem test_emitSr_co3 : nextIs (exec (.emitSr 0) (withPipe { Pipe.reset with sr := stackOf 1 ⟨true, 5⟩ ⟨false, 0⟩ ⟨false, 1⟩ }))
    (fun t => decide (contents t.pipe.outBuf = [0x80, 0x05])) = true := by decide
theorem test_emitSr_outside_the_stack_faults :
    isFault (exec (.emitSr 1) (withPipe { Pipe.reset with sr := stackOf 1 ⟨true, 5⟩ ⟨false, 0⟩ ⟨false, 1⟩ })) .srIndex
      = true := by decide
theorem test_emitIpv4_co9 : nextIs (exec .emitIpv4 (withPipe { Pipe.reset with ipv4 := ip1 }))
    (fun t => decide (contents t.pipe.outBuf = ipv4Co9)) = true := by decide

/-! ## The parser (95_test_vectors.md section 3) -/

theorem test_pStart_pa3 : nextIs (exec .pStart (withPipe (parsing (ethOf 0x86 0xDD))))
    (fun t => decide (t.pipe.pstate = .accept ∧ t.pipe.cur = 14)) = true := by decide
theorem test_pStart_pa11 : nextIs (exec .pStart (withPipe (parsing (ethOf 0x12 0x34))))
    (fun t => decide (t.pipe.pstate = .parseSr ∧ t.pipe.eth.valid = true)) = true := by decide
theorem test_pArp_pa6_short : nextIs (exec .pArp (withPipe { parsing (ethOf 8 6 ++ arpCo2.take 27) with cur := 14 }))
    (fun t => decide (t.pipe.pstate = .reject ∧ t.pipe.cur = 14 ∧ t.pipe.arp.valid = false)) = true := by decide
theorem test_pArp_pa7 : nextIs (exec .pArp (withPipe { parsing (ethOf 8 6 ++ arpCo2) with cur := 14 }))
    (fun t => decide (t.pipe.pstate = .accept ∧ t.pipe.cur = 42 ∧ t.pipe.arp.valid = true)) = true := by decide
theorem test_pSr_pa13_leaves_on_bos : nextIs (exec .pSr (withPipe (parsing [0x80, 0x05])))
    (fun t => decide (t.pipe.pstate = .parseIpv4 ∧ t.pipe.sr.len = 1)) = true := by decide
theorem test_pSr_pa18_full_stack : nextIs
    (exec .pSr (withPipe { parsing [0x80, 0x05] with sr := stackOf 10 ⟨false, 1⟩ ⟨false, 1⟩ ⟨false, 1⟩ }))
    (fun t => decide (t.pipe.err = .sourceRouteOverflow ∧ t.pipe.sr.len = 10 ∧ t.pipe.cur = 0)) = true := by decide
theorem test_pSrOverflow : nextIs (exec .pSrOverflow (withPipe (parsing [])))
    (fun t => decide (t.pipe.err = .sourceRouteOverflow ∧ t.pipe.stage = .done ∧ t.pipe.drop = true)) = true := by decide
theorem test_pIpv4_pa10 : nextIs (exec .pIpv4 (withPipe { parsing (ethOf 8 0 ++ ipv4Co9) with cur := 14 }))
    (fun t => decide (t.pipe.pstate = .accept ∧ t.pipe.cur = 34 ∧ t.pipe.ipv4 = ip1)) = true := by decide
theorem test_pAccept_pa3 : nextIs (exec .pAccept (withPipe { parsing (ethOf 0x86 0xDD) with cur := 14 }))
    (fun t => decide (t.pipe.payloadOff = 14 ∧ t.pipe.stage = .decide)) = true := by decide
theorem test_select_operations_write_pstate :
    [.pStartSelArp, .pStartSelSr, .pStartSelIpv4, .pStartSelOther, .pSrSelBos1, .pSrSelBos0].map
        (fun i => nextIs (exec i (withPipe (parsing []))) fun t => decide (t.pipe.pstate =
          match i with
          | .pStartSelArp => .parseArp
          | .pStartSelSr => .parseSr
          | .pStartSelIpv4 => .parseIpv4
          | .pSrSelBos1 => .parseIpv4
          | .pSrSelBos0 => .parseSr
          | _ => .accept))
      = [true, true, true, true, true, true] := by decide

/-! ## The decision stage (95_test_vectors.md W1, W2, AR, SR, LP) -/

/-- The decision stage's frame of W1. -/
def w1 : Pipe :=
  { parsing [] with
    stage := .decide, eth := { eth1 0x0806 with dst := 0xAAAAAAAAAAAA, src := 0xBBBBBBBBBBBB }
    arp := { arp1 with tha := 0xDDDDDDDDDDDD } }

theorem test_arpReply_w1 : nextIs (exec .arpReply (withPipe w1))
    (fun t => decide (t.pipe.eth.dst = 0xBBBBBBBBBBBB ∧ t.pipe.eth.src = 0xDDDDDDDDDDDD ∧ t.pipe.arp.oper = 2
      ∧ t.pipe.arp.spa = 0x0A00010A ∧ t.pipe.egressPort = 3)) = true := by decide
theorem test_arpReply_w1_swaps : nextIs (exec .arpReply (withPipe w1))
    (fun t => decide (t.pipe.arp.sha = 0xDDDDDDDDDDDD ∧ t.pipe.arp.tha = 0xBBBBBBBBBBBB ∧ t.pipe.arp.tpa = 0x0A000101))
      = true := by decide
theorem test_arpNonlocal_ar3 : nextIs (exec .arpNonlocal (withPipe w1))
    (fun t => decide (t.pipe.egressPort = 0xFFFF ∧ t.pipe.drop = false ∧ t.pipe.arp = w1.arp)) = true := by decide
theorem test_arpNoaction_ar4 : nextIs (exec .arpNoaction (withPipe w1))
    (fun t => decide (t.pipe.err = .noAction ∧ t.pipe.drop = true ∧ t.pipe.egressValid = false)) = true := by decide
theorem test_ipv4FwdMiss_lp5 : nextIs (exec .ipv4FwdMiss (withPipe w1))
    (fun t => decide (t.pipe.err = .noMatch ∧ t.pipe.drop = true)) = true := by decide
theorem test_fallbackDrop_fb4 : nextIs (exec .fallbackDrop (withPipe w1))
    (fun t => decide (t.pipe.err = .unhandledType ∧ t.pipe.drop = true)) = true := by decide

/-- The table of W2. -/
def ftW2 : List FtEntry := [⟨true, 0xC0000200, 24, 5, 0xCCCCCCCCCCCC⟩]

/-- The decision stage's frame of W2, with this TTL. -/
def w2 (ttl : Byte) : State :=
  { withPipe { parsing [] with stage := .decide, eth := eth1 0x0800, ipv4 := { ip1 with ttl := ttl } } with
    cfg := { ft := ftW2, las := lasEmpty } }

theorem test_ipv4FwdHit_w2 : nextIs (exec .ipv4FwdHit (w2 64))
    (fun t => decide (t.pipe.ipv4.ttl = 63 ∧ t.pipe.eth.dst = 0xCCCCCCCCCCCC ∧ t.pipe.eth.src = 0x0A0B0C0D0E0F
      ∧ t.pipe.egressPort = 5)) = true := by decide
theorem test_ipv4FwdHit_without_a_route_faults :
    isFault (exec .ipv4FwdHit (withPipe (w2 64).pipe)) .noRoute = true := by decide
theorem test_dispatch_w2 : nextIs (exec .dispatch (w2 64)) (fun t => decide (t.pipe.egressPort = 5)) = true := by decide
theorem test_dispatch_w1_nonlocal : nextIs (exec .dispatch (withPipe w1)) (fun t => decide (t.pipe.egressPort = 0xFFFF))
    = true := by decide
theorem test_ttlDec_one_expires : nextIs (exec .ttlDec (w2 1))
    (fun t => decide (t.pipe.err = .ttlExpired ∧ t.pipe.ipv4.ttl = 1)) = true := by decide
theorem test_ttlDec_zero_wraps_without_the_check :
    nextIs (exec .ttlDec { w2 0 with params := { Params.default with ttlZeroDrop := false } })
      (fun t => decide (t.pipe.ipv4.ttl = 255 ∧ t.pipe.drop = false)) = true := by decide

/-- A configuration with overlapping prefixes (95_test_vectors.md LP1 to LP4). -/
def ftLp : List FtEntry :=
  [⟨true, 0x0A000000, 8, 1, 1⟩, ⟨true, 0x0A010203, 32, 4, 4⟩, ⟨true, 0x0A010000, 16, 2, 2⟩, ⟨true, 0x0A010200, 24, 3, 3⟩]

theorem test_lpmLookup_takes_the_longest :
    nextIs (exec (.lpmLookup 0x0A010203) { State.reset with cfg := { ft := ftLp, las := lasEmpty } })
      (fun t => decide (t.ret = .lookup (some { port := 4, mac := 4 }))) = true := by decide
theorem test_lpmLookup_misses :
    nextIs (exec (.lpmLookup 0x0B000001) { State.reset with cfg := { ft := ftLp, las := lasEmpty } })
      (fun t => decide (t.ret = .lookup none)) = true := by decide
theorem test_lasMember_needs_the_valid_flag :
    nextIs (exec (.lasMember 0) State.reset) (fun t => decide (t.ret = .member false)) = true := by decide
theorem test_lasMember_of_the_last_entry :
    nextIs (exec (.lasMember 9) { State.reset with cfg := { ft := [], las := #v[⟨false, 9⟩, ⟨true, 8⟩, ⟨true, 9⟩] } })
      (fun t => decide (t.ret = .member true)) = true := by decide

/-- A source-route frame in the decision stage (95_test_vectors.md SR1 and SR2). -/
def srFrame (t : SrStack) (ttl : Byte) : State :=
  withPipe { parsing [] with stage := .decide, eth := eth1 0x1234, sr := t, ipv4 := { ip1 with ttl := ttl } }

theorem test_srHop_sr1 : nextIs (exec .srHop (srFrame (stackOf 3 ⟨false, 2⟩ ⟨false, 7⟩ ⟨true, 5⟩) 64))
    (fun t => decide (t.pipe.egressPort = 2 ∧ t.pipe.sr.len = 2 ∧ t.pipe.eth.etype = 0x1234 ∧ t.pipe.ipv4.ttl = 63
      ∧ t.pipe.sr.e[0] = ⟨false, 7⟩)) = true := by decide
theorem test_srHop_sr2_last_entry : nextIs (exec .srHop (srFrame (stackOf 1 ⟨true, 5⟩ ⟨false, 0⟩ ⟨false, 0⟩) 64))
    (fun t => decide (t.pipe.egressPort = 5 ∧ t.pipe.sr.len = 0 ∧ t.pipe.eth.etype = 0x0800)) = true := by decide
theorem test_srPop_keeps_the_last_register : nextIs (exec .srPop (srFrame (stackOf 2 ⟨false, 2⟩ ⟨true, 7⟩ ⟨false, 9⟩) 64))
    (fun t => decide (t.pipe.sr.len = 1 ∧ t.pipe.sr.e[0] = ⟨true, 7⟩ ∧ t.pipe.sr.e[1] = ⟨true, 7⟩)) = true := by decide
theorem test_srPop_of_an_empty_stack_faults : isFault (exec .srPop State.reset) .srIndex = true := by decide

/-! ## The checksum (95_test_vectors.md CO9 and W2) -/

theorem test_csumCompute_co9 : nextIs (exec .csumCompute (w2 64)) (fun t => decide (t.ret = .checksum 0xB7FA)) = true := by decide
theorem test_csumUpdate_w2 : nextIs (exec .csumUpdate (w2 63)) (fun t => decide (t.pipe.ipv4.checksum = 0xB8FA)) = true := by decide

/-! ## The serializer, the verdict and the host's calls -/

/-- A frame after the checksum stage: 14 header bytes consumed and one byte of payload. -/
def toEmit : Pipe :=
  { parsing (ethOf 0x12 0x34 ++ [0x77]) with
    stage := .deparse, eth := eth1 0x1234, cur := 14, payloadOff := 14, payloadSet := true, egressValid := true,
    egressPort := 5 }

theorem test_deparse_emits_headers_then_payload :
    nextIs (exec .deparse (withPipe { toEmit with sr := stackOf 2 ⟨false, 7⟩ ⟨true, 5⟩ ⟨false, 0⟩ }))
      (fun t => decide (contents t.pipe.outBuf = ethOf 0x12 0x34 ++ [0x00, 0x07, 0x80, 0x05, 0x77] ∧ t.pipe.stage = .done))
        = true := by decide
theorem test_deparse_of_a_dropped_frame_emits_nothing :
    nextIs (exec .deparse (withPipe { toEmit with drop := true, err := .noMatch }))
      (fun t => decide (t.pipe.outBuf = [] ∧ t.pipe.stage = .done)) = true := by decide
theorem test_emitPayload_copies_the_rest : nextIs (exec .emitPayload (withPipe toEmit))
    (fun t => decide (contents t.pipe.outBuf = [0x77])) = true := by decide
theorem test_emitPayload_before_accept_faults : isFault (exec .emitPayload State.reset) .noPayloadOff = true := by decide
theorem test_egressVerdict_forwards : nextIs (exec .egressVerdict (withPipe toEmit))
    (fun t => decide (t.ret = .verdict { verdict := .forward, port := some 5, bytes := [], cause := .none })) = true := by decide
theorem test_egressVerdict_drops_without_a_target : nextIs (exec .egressVerdict (withPipe { toEmit with egressValid := false }))
    (fun t => decide (t.ret = .verdict { verdict := .drop, port := none, bytes := [], cause := .none })) = true := by decide
theorem test_egress_hands_over : nextIs (exec .egress (withPipe { toEmit with stage := .done, egressPort := 0xFFFF }))
    (fun t => decide (t.pipe.stage = .idle ∧ t.delivered.map EgressResult.verdict = [.sentinel])) = true := by decide
theorem test_egress_only_in_done : isRefused (exec .egress State.reset) .egressNotDone = true := by decide
theorem test_ingress_starts_a_frame : nextIs (exec (.ingress [0xAA, 0xBB] 3) State.reset)
    (fun t => decide (t.pipe.stage = .parse ∧ contents t.pipe.inBuf = [0xAA, 0xBB] ∧ t.pipe.ingressPort = 3)) = true := by decide
theorem test_ingress_refuses_the_sentinel : isRefused (exec (.ingress [0xAA] 0xFFFF) State.reset) .ingressNoPort = true := by decide
theorem test_ftInstall_in1 : nextIs (exec (.ftInstall 0xC0000200 24 5 0xCCCCCCCCCCCC) State.reset)
    (fun t => decide (t.cfg.ft = ftW2 ∧ t.ret = .installed true)) = true := by decide
theorem test_ftInstall_refuses_length_33 : nextIs (exec (.ftInstall 0 33 5 0) State.reset)
    (fun t => decide (t.cfg.ft = [] ∧ t.ret = .installed false)) = true := by decide
theorem test_lasConfigure_replaces_all : nextIs
    (exec (.lasConfigure none (some 8) none) { State.reset with cfg := { ft := [], las := Vector.replicate 3 ⟨true, 9⟩ } })
    (fun t => decide (t.cfg.las.toList.map LasEntry.valid = [false, true, false] ∧ t.cfg.las[1].addr = 8)) = true := by decide

/-! ## The step -/

theorem test_reset_memory_is_canonical : State.reset.pipe.inBuf.wf ∧ State.reset.pipe.outBuf.wf := by decide
theorem test_reset_waits : isRefused (step State.reset) .idle = true := by decide
theorem test_step_takes_the_host_call :
    nextIs (step { State.reset with agenda := [.call [0x09, 0x00, 0x00, 0x03, 0xAA], .own] })
      (fun t => decide (t.pipe.stage = .parse ∧ t.agenda = [.own])) = true := by decide
theorem test_step_refuses_other_calls :
    isRefused (step { State.reset with agenda := [.call [0x08]] }) .notHostCall = true := by decide
theorem test_step_runs_the_placed_operation : nextIs (step (State.reset.withFetchWord 24 0x40000))
    (fun t => decide (t.pipe.stage = .decide ∧ t.pipe.payloadSet = true)) = true := by decide
theorem test_block_reset_discards_the_frame :
    nextIs (step { withPipe toEmit with agenda := [.blockReset] })
      (fun t => decide (t.pipe.stage = .idle ∧ t.pipe.inBuf = [] ∧ t.delivered = [])) = true := by decide
theorem test_switch_changes_the_active_instance :
    nextIs (step { withPipe toEmit with parked := [Pipe.reset], agenda := [.switchTo 0] })
      (fun t => decide (t.pipe = Pipe.reset ∧ t.parked = [toEmit])) = true := by decide

end Sys2Proof.Tests
end

