-- ==== Sys2Proof/Tests/Witnesses.lean ====
section
/-! SUPPORT. For each statement of Certificates/Slice0/Obligations.lean that has hypotheses, states and operands that meet all of
them together, at the boundary values of its clauses. -/

namespace Sys2Proof.Tests

open Sys2Proof.Machine

/-- A test on a next state shows that there is one. -/
theorem exists_next {o : Host.Outcome State Fault Refusal} {f : State → Bool} (h : nextIs o f = true) :
    ∃ t, o = .next t ∧ f t = true := by
  cases o with
  | next t => exact ⟨t, rfl, h⟩
  | fault _ => cases h
  | refused _ => cases h

/-! ## States -/

/-- A parser step about to run. -/
def parseAt (st : PState) (cur : Nat) (bytes : List Byte) : State :=
  withPipe { parsing bytes with pstate := st, cur := cur }

/-- A whole IPv4 frame in the decision stage, with the table of W2. -/
def decideIp : State :=
  { withPipe
      { parsing (ethOf 8 0 ++ ipv4Co9) with
        stage := .decide, pstate := .accept, cur := 34, payloadOff := 34, payloadSet := true, eth := eth1 0x0800
        ipv4 := ip1 } with
    cfg := { ft := ftW2, las := lasEmpty } }

/-- A whole address-resolution request in the decision stage, with no local address. -/
def decideArp : State :=
  withPipe
    { parsing (ethOf 8 6 ++ arpCo2) with
      stage := .decide, pstate := .accept, cur := 42, payloadOff := 42, payloadSet := true, eth := eth1 0x0806
      arp := arp1 }

/-- A whole source-route frame of this stack in the decision stage. -/
def decideSr (t : SrStack) (ttl : Byte) : State :=
  withPipe
    { parsing (ethOf 0x12 0x34 ++ List.replicate 40 0) with
      stage := .decide, pstate := .accept, cur := 34 + 2 * t.len, payloadOff := 34 + 2 * t.len, payloadSet := true
      eth := eth1 0x1234, sr := t, ipv4 := { ip1 with ttl := ttl } }

/-- A full stack whose last entry has the bottom-of-stack flag 1. -/
def fullStack : SrStack :=
  { len := 10
    e := #v[⟨false, 1⟩, ⟨false, 2⟩, ⟨false, 3⟩, ⟨false, 4⟩, ⟨false, 5⟩, ⟨false, 6⟩, ⟨false, 7⟩, ⟨false, 8⟩, ⟨false, 9⟩,
      ⟨true, 10⟩] }

/-- The dropped IPv4 frame in the checksum stage. -/
def csumIp : State :=
  withPipe { decideIp.pipe with stage := .csum, drop := true, err := .noMatch }

/-- A table with its first `n` entry registers valid. -/
def tableOfSize (n : Nat) : List FtEntry := (List.range n).map fun i => ⟨true, BitVec.ofNat 32 i, 32, 5, 0⟩

theorem tableOfSize_length (n : Nat) : (tableOfSize n).length = n := by rw [tableOfSize, List.length_map, List.length_range]

theorem tableOfSize_plen {n : Nat} {e : FtEntry} (h : e ∈ tableOfSize n) : e.valid = true ∧ e.plen = 32 ∧ e.port = 5 := by
  obtain ⟨i, -, rfl⟩ := List.mem_map.1 h
  exact ⟨rfl, rfl, rfl⟩

theorem tableOfSize_ok (n : Nat) (hn : n ≤ Config.ftCapacity) : tableOk (tableOfSize n) := by
  have hn' : n ≤ 1024 := hn
  refine ⟨?_, ?_, ?_⟩
  · rw [tableOfSize_length]
    exact hn
  · intro e he
    obtain ⟨h1, h2, h3⟩ := tableOfSize_plen he
    rw [h2, h3]
    exact ⟨h1, by decide, by decide⟩
  · have hm : prefixMask (BitVec.toNat (32#6)) = BitVec.allOnes 32 := by decide
    rw [tableOfSize, List.pairwise_map]
    refine List.Pairwise.imp_of_mem ?_ (List.nodup_range (n := n))
    intro a b ha hb hab h
    have ha := List.mem_range.1 ha
    have hb := List.mem_range.1 hb
    simp only [ftKey, Prod.mk.injEq] at h
    have h1 : BitVec.ofNat 32 a &&& BitVec.allOnes 32 = BitVec.ofNat 32 b &&& BitVec.allOnes 32 := by
      rw [← hm]
      exact h.1
    rw [BitVec.and_allOnes, BitVec.and_allOnes] at h1
    have h2 := congrArg BitVec.toNat h1
    simp only [BitVec.toNat_ofNat] at h2
    omega

/-- The reset machine with this table. -/
def withTable (ft : List FtEntry) : State := { State.reset with cfg := { ft := ft, las := lasEmpty } }

theorem withTable_ft (ft : List FtEntry) : (withTable ft).cfg.ft = ft := rfl

/-- The active instance's own turn in a stage. -/
abbrev ownAt (s : State) (g : Stage) : Prop := s.params.distinct ∧ ownTurn s ∧ s.pipe.stage = g

/-! ## These states meet the invariant -/

/-- An IPv4 frame whose parser is in ACCEPT. -/
def acceptIp : State := withPipe { decideIp.pipe with stage := .parse, payloadSet := false }

theorem decideIp_inv : machineInv decideIp := by
  refine ⟨by decide, by decide, ⟨by decide, ?_, ?_, ?_, ?_, ?_⟩, fun _ hp => nomatch hp⟩ <;> intro h <;>
    first
      | exact absurd h (by decide)
      | exact ⟨by decide, by decide, by decide, by decide, by decide⟩

theorem decideArp_inv : machineInv decideArp := by
  refine ⟨by decide, by decide, ⟨by decide, ?_, ?_, ?_, ?_, ?_⟩, fun _ hp => nomatch hp⟩ <;> intro h <;>
    first
      | exact absurd h (by decide)
      | exact ⟨by decide, by decide, by decide, by decide, by decide⟩

theorem acceptIp_inv : machineInv acceptIp := by
  refine ⟨by decide, by decide, ⟨by decide, ?_, ?_, ?_, ?_, ?_⟩, fun _ hp => nomatch hp⟩ <;> intro h <;>
    first
      | exact absurd h (by decide)
      | exact ⟨by decide, by decide, by decide, by decide, by decide, by decide, by decide, by decide⟩

theorem csumIp_inv : machineInv csumIp := by
  refine ⟨by decide, by decide, ⟨by decide, ?_, ?_, ?_, ?_, ?_⟩, fun _ hp => nomatch hp⟩ <;> intro h <;>
    first
      | exact absurd h (by decide)
      | exact ⟨by decide, by decide⟩

theorem started_inv : machineInv (parseAt .start 0 (ethOf 8 0)) := by
  refine ⟨by decide, by decide, ⟨by decide, ?_, ?_, ?_, ?_, ?_⟩, fun _ hp => nomatch hp⟩ <;> intro h <;>
    first
      | exact absurd h (by decide)
      | exact ⟨by decide, by decide, by decide, by decide, by decide, by decide, by decide, by decide⟩

theorem reset_inv : machineInv State.reset := by
  refine ⟨by decide, by decide, ⟨by decide, ?_, ?_, ?_, ?_, ?_⟩, fun _ hp => nomatch hp⟩ <;> intro h <;> exact absurd h (by decide)

/-! ## Encodings and the codec -/

theorem witness_EveryOperationWordDecodesToItsOperation :
    Params.default.distinct ∧ (Instr.emitSr 9).wellFormed = true ∧ Instr.dispatch.wellFormed = true := by decide

theorem witness_HeaderCodecRoundTrips :
    (ethOf 0x86 0xDD).length = 14 ∧ arpCo2.length = 28 ∧ [0x80#8, 0x05#8].length = 2 ∧ ipv4Co9.length = 20
      ∧ (eth1 0x0800).valid = true ∧ arp1.valid = true ∧ ip1.valid = true := by decide

theorem witness_DecEthReadsTheNextFourteenBytes :
    let short := parseAt .start 0 ((ethOf 8 0).take 13)
    let long := parseAt .start 0 (ethOf 8 0)
    short.pipe.inBuf.wf ∧ short.pipe.inBuf.size - short.pipe.cur < 14
      ∧ long.pipe.inBuf.wf ∧ 14 ≤ long.pipe.inBuf.size - long.pipe.cur := by decide

theorem witness_DecArpReadsTheNextTwentyEightBytes :
    let short := parseAt .parseArp 14 (ethOf 8 6 ++ arpCo2.take 27)
    let long := parseAt .parseArp 14 (ethOf 8 6 ++ arpCo2)
    short.pipe.inBuf.wf ∧ short.pipe.inBuf.size - short.pipe.cur < 28
      ∧ long.pipe.inBuf.wf ∧ 28 ≤ long.pipe.inBuf.size - long.pipe.cur := by decide

theorem witness_DecSrAppendsTheNextEntry :
    let short := parseAt .parseSr 14 (ethOf 0x12 0x34 ++ [0x80])
    let long := withPipe { (parseAt .parseSr 0 [0x80, 0x05]).pipe with sr := { fullStack with len := 9 } }
    short.pipe.inBuf.wf ∧ short.pipe.inBuf.size - short.pipe.cur < 2
      ∧ long.pipe.inBuf.wf ∧ nextBytes long.pipe 2 = [0x80, 0x05] ∧ long.pipe.sr.len < 10 := by decide

theorem witness_DecIpv4ReadsTheNextTwentyBytes :
    let short := parseAt .parseIpv4 14 (ethOf 8 0 ++ ipv4Co9.take 19)
    let long := parseAt .parseIpv4 14 (ethOf 8 0 ++ ipv4Co9)
    short.pipe.inBuf.wf ∧ short.pipe.inBuf.size - short.pipe.cur < 20
      ∧ long.pipe.inBuf.wf ∧ 20 ≤ long.pipe.inBuf.size - long.pipe.cur := by decide

theorem witness_EncodersAndEmissionsAppendTheWireBytes :
    decideIp.pipe.eth.valid = true ∧ decideArp.pipe.arp.valid = true ∧ decideIp.pipe.ipv4.valid = true := by decide

theorem witness_EncSrAndEmitSrAppendTheEntry :
    (9#4).toNat < (decideSr fullStack 64).pipe.sr.len
      ∧ (decideSr fullStack 64).pipe.sr.e[(9#4).toNat]? = some ⟨true, 10⟩ := by decide

theorem witness_AppendedBytesReadBackAndOthersStay : Memory.wf (bufferOf [0x01, 0x02]) ∧ Memory.wf [] := by decide

/-! ## The parser -/

theorem witness_PStartDecodesAndBranchesOnTheTypeTag :
    let short := parseAt .start 0 ((ethOf 8 0).take 13)
    let long := parseAt .start 0 (ethOf 0x12 0x34)
    short.pipe.inBuf.wf ∧ short.pipe.inBuf.size - short.pipe.cur < 14
      ∧ long.pipe.inBuf.wf ∧ 14 ≤ long.pipe.inBuf.size - long.pipe.cur := by decide

theorem witness_PSrChecksCapacityThenAppendsAndBranches :
    let full := withPipe { (parseAt .parseSr 0 []).pipe with sr := fullStack }
    let short := withPipe { (parseAt .parseSr 0 [0x80]).pipe with sr := { fullStack with len := 9 } }
    let long := withPipe { (parseAt .parseSr 0 [0x80, 0x05]).pipe with sr := { fullStack with len := 9 } }
    (full.pipe.inBuf.wf ∧ full.pipe.sr.len = 10)
      ∧ (short.pipe.inBuf.wf ∧ short.pipe.sr.len < 10 ∧ short.pipe.inBuf.size - short.pipe.cur < 2)
      ∧ long.pipe.inBuf.wf ∧ long.pipe.sr.len < 10 ∧ 2 ≤ long.pipe.inBuf.size - long.pipe.cur := by decide

theorem witness_PArpAndPIpv4DecodeAndAccept :
    let a := parseAt .parseArp 14 (ethOf 8 6 ++ arpCo2.take 27)
    let b := parseAt .parseArp 14 (ethOf 8 6 ++ arpCo2)
    let c := parseAt .parseIpv4 14 (ethOf 8 0 ++ ipv4Co9.take 19)
    let d := parseAt .parseIpv4 14 (ethOf 8 0 ++ ipv4Co9)
    (a.pipe.inBuf.wf ∧ a.pipe.inBuf.size - a.pipe.cur < 28) ∧ (b.pipe.inBuf.wf ∧ 28 ≤ b.pipe.inBuf.size - b.pipe.cur)
      ∧ (c.pipe.inBuf.wf ∧ c.pipe.inBuf.size - c.pipe.cur < 20)
      ∧ d.pipe.inBuf.wf ∧ 20 ≤ d.pipe.inBuf.size - d.pipe.cur := by decide

theorem witness_EveryFrameLeavesTheParserWithinThirteenSteps :
    machineInv (parseAt .start 0 (ethOf 8 0)) ∧ (parseAt .start 0 (ethOf 8 0)).agenda = []
      ∧ (parseAt .start 0 (ethOf 8 0)).pipe.stage = .parse := ⟨started_inv, rfl, rfl⟩

theorem witness_AcceptedFramesHaveOneOfFourHeaderStacks :
    machineInv acceptIp ∧ acceptIp.pipe.stage = .parse ∧ ownTurn acceptIp
      ∧ ∃ t, step acceptIp = .next t ∧ decide (t.pipe.stage = .decide) = true :=
  ⟨acceptIp_inv, by decide, by decide, exists_next (by decide)⟩

theorem witness_ParserStepsDoNotDependOnTheConfiguration :
    acceptIp.pipe.stage = .parse ∧ ownTurn acceptIp := by decide

/-! ## The decision stage -/

theorem witness_DispatchRunsTheFirstPathWhoseConditionHolds :
    decideIp.params.distinct ∧ decideIp.pipe.eth.valid = true ∧ machineInv decideIp
      ∧ decideIp.pipe.stage = .decide := ⟨by decide, by decide, decideIp_inv, by decide⟩

theorem witness_ArpReplySwapsTheAddressPairs :
    decideArp.pipe.eth.valid = true ∧ decideArp.pipe.arp.valid = true ∧ decideArp.pipe.ingressSet = true := by decide

theorem witness_TtlDecDecrementsOrDrops :
    let keep : Params := { Params.default with ttlZeroDrop := false }
    ((w2 1).pipe.ipv4.valid = true ∧ (w2 1).params.ttlZeroDrop = true ∧ (w2 1).pipe.ipv4.ttl.toNat ≤ 1)
      ∧ ((w2 2).pipe.ipv4.valid = true ∧ 1 < (w2 2).pipe.ipv4.ttl.toNat)
      ∧ (w2 0).pipe.ipv4.valid = true ∧ ({ w2 0 with params := keep } : State).params.ttlZeroDrop = false := by decide

theorem witness_DecisionStageRunsDispatchOnceThenMovesToCsum :
    decideIp.params.distinct ∧ decideIp.pipe.stage = .decide ∧ decideIp.pipe.eth.valid = true ∧ ownTurn decideIp := by
  decide

theorem witness_OnlyNonlocalRequestsGetTheSentinelTarget :
    machineInv decideArp ∧ decideArp.pipe.stage = .decide ∧ ownTurn decideArp
      ∧ ∃ t, step decideArp = .next t
          ∧ decide (t.pipe.egressValid = true ∧ t.pipe.egressPort = Config.noPort) = true :=
  ⟨decideArp_inv, by decide, by decide, exists_next (by decide)⟩

/-! ## The source-route stack processor -/

theorem witness_SrPopShiftsTheEntriesForward :
    let one := decideSr (stackOf 1 ⟨true, 5⟩ ⟨false, 0⟩ ⟨false, 0⟩) 64
    let ten := decideSr fullStack 64
    (1 ≤ one.pipe.sr.len ∧ one.pipe.sr.len ≤ 10) ∧ 1 ≤ ten.pipe.sr.len ∧ ten.pipe.sr.len ≤ 10 := by decide

theorem witness_SrHopForwardsToTheFrontEntry :
    let one := decideSr (stackOf 1 ⟨true, 5⟩ ⟨false, 0⟩ ⟨false, 0⟩) 64
    let ten := decideSr fullStack 1
    (1 ≤ one.pipe.sr.len ∧ one.pipe.sr.len ≤ 10 ∧ one.pipe.sr.e[0]? = some ⟨true, 5⟩)
      ∧ 1 ≤ ten.pipe.sr.len ∧ ten.pipe.sr.len ≤ 10 ∧ ten.pipe.sr.e[0]? = some ⟨false, 1⟩ := by decide

theorem witness_OneHopLeavesAnAcceptedFrameWithOneEntryLess :
    let one := decideSr (stackOf 1 ⟨true, 5⟩ ⟨false, 0⟩ ⟨false, 0⟩) 2
    let ten := decideSr fullStack 2
    (one.params.distinct ∧ acceptedStack one.params one.pipe ∧ one.pipe.eth.etype = one.params.srType
        ∧ one.pipe.sr.e[0]? = some ⟨true, 5⟩ ∧ 1 < one.pipe.ipv4.ttl.toNat)
      ∧ ten.params.distinct ∧ acceptedStack ten.params ten.pipe ∧ ten.pipe.eth.etype = ten.params.srType
        ∧ ten.pipe.sr.e[0]? = some ⟨false, 1⟩ ∧ 1 < ten.pipe.ipv4.ttl.toNat :=
  ⟨⟨by decide, by decide, by decide, by decide, by decide⟩, by decide, by decide, by decide, by decide, by decide⟩

/-! ## The lookup engine -/

theorem witness_LookupDoesNotDependOnTheOrderOfEntries : tableOk ftLp ∧ ftLp.Perm ftLp.reverse :=
  ⟨by decide, (List.reverse_perm ftLp).symm⟩

theorem witness_Ipv4FwdHitForwardsToTheMatchedEntry :
    (w2 1).pipe.ipv4.valid = true
      ∧ lookupRoute (w2 1).snapshot.ft (w2 1).pipe.ipv4.dst = some { port := 5, mac := 0xCCCCCCCCCCCC } := by decide

/-! ## The checksum updater and the serializer -/

theorem witness_ChecksumIsComputedAndStored : (w2 64).pipe.ipv4.valid = true := by decide

theorem witness_ChecksumStageUpdatesAValidHeaderAndMovesOn :
    csumIp.params.distinct ∧ csumIp.pipe.stage = .csum ∧ ownTurn csumIp := by decide

theorem witness_DeparseEmitsTheValidHeadersInCanonicalOrder :
    let s := withPipe { (decideSr fullStack 64).pipe with stage := .deparse }
    s.pipe.inBuf.wf ∧ s.pipe.payloadSet = true ∧ s.pipe.sr.len ≤ 10 := by decide

theorem witness_EmitPayloadCopiesTheRestOfTheFrame :
    (withPipe toEmit).pipe.inBuf.wf ∧ (withPipe toEmit).pipe.payloadSet = true := by decide

theorem witness_EgressHandsOverTheVerdict :
    (withPipe { toEmit with stage := .done }).pipe.stage = .done ∧ State.reset.pipe.stage ≠ .done := by decide

/-! ## The host's calls -/

theorem witness_IngressStartsAFrameOrIsRefused :
    let one : State := { State.reset with params := { Params.default with maxFrameLen := some 1 } }
    (one.pipe.stage = .idle ∧ (3 : Port) ≠ Config.noPort ∧ one.params.maxFrameLen = some 1 ∧ [0xAA#8].length ≤ 1)
      ∧ (withPipe toEmit).pipe.stage ≠ .idle
      ∧ (one.pipe.stage = .idle ∧ (0xFFFF : Port) = Config.noPort)
      ∧ one.pipe.stage = .idle ∧ (3 : Port) ≠ Config.noPort ∧ one.params.maxFrameLen = some 1
        ∧ 1 < [0xAA#8, 0xBB#8].length := by decide

theorem witness_FtInstallReplacesOrAddsOrRefuses :
    tableOk (w2 64).cfg.ft ∧ tableOk (withTable (tableOfSize Config.ftCapacity)).cfg.ft
      ∧ (32 < (33#8).toNat ∧ (0xFFFF : Port) = Config.noPort)
      ∧ ((withTable (tableOfSize Config.ftCapacity)).cfg.ft.length = 1024
          ∧ ¬ ∃ e ∈ (withTable (tableOfSize Config.ftCapacity)).cfg.ft,
              ftKey e.pfx e.plen = ftKey 0 (BitVec.ofNat 6 (0#8).toNat))
      ∧ (¬ (32 < (24#8).toNat) ∧ (7 : Port) ≠ Config.noPort
          ∧ ∃ e ∈ (w2 64).cfg.ft, ftKey e.pfx e.plen = ftKey 0xC00002FF (BitVec.ofNat 6 (24#8).toNat))
      ∧ ¬ (32 < (32#8).toNat) ∧ (w2 64).cfg.ft.length ≠ 1024
          ∧ ¬ ∃ e ∈ (w2 64).cfg.ft, ftKey e.pfx e.plen = ftKey 0xC0000205 (BitVec.ofNat 6 (32#8).toNat) := by
  rw [withTable_ft]
  refine ⟨by decide, tableOfSize_ok _ (Nat.le_refl _), by decide, ⟨tableOfSize_length _, ?_⟩, by decide, by decide,
    by decide, by decide⟩
  rintro ⟨e, he, h⟩
  have h6 : e.plen = BitVec.ofNat 6 (0#8).toNat := congrArg Prod.snd h
  rw [(tableOfSize_plen he).2.1] at h6
  exact absurd h6 (by decide)

theorem witness_InstalledRouteIsFoundWhereNoLongerPrefixMatches :
    tableOk (w2 64).cfg.ft
      ∧ ∃ t, exec (.ftInstall 0xC0000205 32 7 1) (w2 64) = .next t ∧ decide (t.ret = .installed true) = true :=
  ⟨by decide, exists_next (by decide)⟩

theorem witness_HostCallsOfOtherOperationsAreRefused :
    let s : State := { State.reset with agenda := [.call [0x08]] }
    let t : State := { State.reset with agenda := [.call [0x09, 0x01]] }
    (s.params.distinct ∧ turnOf s = .call [0x08] ∧ decode s.params [0x08] = .ok .egressVerdict)
      ∧ t.params.distinct ∧ turnOf t = .call [0x09, 0x01] ∧ decode t.params [0x09, 0x01] = .ok .egress := by decide

theorem witness_BlockResetIdlesEveryInstanceAndKeepsTheConfiguration :
    let s : State := { decideIp with agenda := [.blockReset], parked := [toEmit] }
    s.params.distinct ∧ turnOf s = .blockReset := by decide

/-! ## The step -/

theorem witness_StepRunsTheOperationItsKeySelects :
    acceptIp.params.distinct ∧ ownTurn acceptIp ∧ fetchOwn (popTurn acceptIp) = .word [0x00, 0x00, 0x00, 0x04]
      ∧ decode acceptIp.params [0x00, 0x00, 0x00, 0x04] = .ok .pAccept := by decide

theorem witness_StageAndParserStateSelectTheOperation :
    let full := withPipe { (parseAt .parseSr 0 []).pipe with sr := fullStack }
    let nine := withPipe { (parseAt .parseSr 0 []).pipe with sr := { fullStack with len := 9 } }
    ownAt (parseAt .start 0 []) .parse ∧ (parseAt .start 0 []).pipe.pstate = .start
      ∧ ownAt (parseAt .parseArp 0 []) .parse ∧ (parseAt .parseArp 0 []).pipe.pstate = .parseArp
      ∧ ownAt nine .parse ∧ nine.pipe.pstate = .parseSr ∧ nine.pipe.sr.len ≠ 10
      ∧ ownAt full .parse ∧ full.pipe.pstate = .parseSr ∧ full.pipe.sr.len = 10
      ∧ ownAt (parseAt .parseIpv4 0 []) .parse ∧ (parseAt .parseIpv4 0 []).pipe.pstate = .parseIpv4
      ∧ ownAt acceptIp .parse ∧ acceptIp.pipe.pstate = .accept
      ∧ ownAt (withPipe toEmit) .deparse ∧ ownAt State.reset .idle ∧ ownAt (withPipe { toEmit with stage := .done }) .done := by
  refine ⟨?_, ?_, ?_, ?_, ?_, ?_, ?_, ?_, ?_, ?_, ?_, ?_, ?_, ?_, ?_, ?_, ?_⟩ <;> decide

theorem witness_EqualEtherTypesAreRefused :
    ({ State.reset with params := { Params.default with srType := 0x0800 } } : State).params.srType = 0x0800#16
      ∧ ({ State.reset with params := { Params.default with srType := 0x0806 } } : State).params.srType = 0x0806#16 := by
  decide

theorem witness_StagesFollowEachOtherInStrictOrder :
    (ownTurn acceptIp ∧ ∃ t, step acceptIp = .next t ∧ decide (t.pipe.stage = .decide) = true)
      ∧ (ownTurn decideIp ∧ ∃ t, step decideIp = .next t ∧ decide (t.pipe.stage = .csum) = true)
      ∧ (ownTurn csumIp ∧ ∃ t, step csumIp = .next t ∧ decide (t.pipe.stage = .deparse) = true)
      ∧ ownTurn (withPipe toEmit) ∧ ∃ t, step (withPipe toEmit) = .next t ∧ decide (t.pipe.stage = .done) = true :=
  ⟨⟨by decide, exists_next (by decide)⟩, ⟨by decide, exists_next (by decide)⟩, ⟨by decide, exists_next (by decide)⟩,
    by decide, exists_next (by decide)⟩

theorem witness_OwnStepsLeaveEverythingSharedUnchanged :
    ownTurn decideArp ∧ ∃ t, step decideArp = .next t ∧ decide (t.pipe.egressValid = true) = true :=
  ⟨by decide, exists_next (by decide)⟩

theorem witness_CausesAreRecordedOnlyByTheirStage :
    (ownTurn (parseAt .start 0 [])
        ∧ ∃ t, step (parseAt .start 0 []) = .next t ∧ decide (t.pipe.err = .truncatedHeader) = true)
      ∧ ownTurn csumIp ∧ machineInv csumIp ∧ csumIp.pipe.drop = true ∧ csumIp.pipe.err ≠ .none
        ∧ ∃ t, step csumIp = .next t ∧ decide (t.pipe.err = .noMatch) = true :=
  ⟨⟨by decide, exists_next (by decide)⟩, by decide, csumIp_inv, by decide, by decide, exists_next (by decide)⟩

/-- The request of `decideArp` in an instance that no frame has come into. -/
def decideArpNoPort : State := withPipe { decideArp.pipe with ingressSet := false }

theorem witness_ReadingWhatHoldsNoValueIsAFault :
    State.reset.pipe.eth.valid = false ∧ State.reset.pipe.arp.valid = false
      ∧ (decideIp.pipe.eth.valid = true ∧ decideIp.pipe.arp.valid = false) ∧ State.reset.pipe.ipv4.valid = false
      ∧ (decideSr (stackOf 9 ⟨false, 1⟩ ⟨false, 1⟩ ⟨false, 1⟩) 64).pipe.sr.len ≤ (9#4).toNat
      ∧ State.reset.pipe.sr.len = 0 ∧ State.reset.pipe.payloadSet = false
      ∧ decideArpNoPort.pipe.eth.valid = true ∧ decideArpNoPort.pipe.arp.valid = true
      ∧ decideArpNoPort.pipe.ingressSet = false := by decide

/-! ## Reset, the invariant and whole frames -/

theorem witness_InvariantHoldsAtReset : Params.default.distinct := by decide

theorem witness_EveryStepKeepsTheInvariant :
    machineInv decideIp ∧ ∃ t, step decideIp = .next t ∧ decide (t.pipe.egressPort = 5) = true :=
  ⟨decideIp_inv, exists_next (by decide)⟩

theorem witness_NoStepFromTheInvariantFaults : machineInv decideArp ∧ machineInv csumIp := ⟨decideArp_inv, csumIp_inv⟩

theorem witness_EveryFrameIsDoneWithinSixteenSteps :
    machineInv State.reset ∧ State.reset.agenda = []
      ∧ ∃ t, exec (.ingress (ethOf 8 0) 3) State.reset = .next t ∧ decide (t.pipe.stage = .parse) = true :=
  ⟨reset_inv, rfl, exists_next (by decide)⟩

/-- An idle instance that holds what an earlier frame left, beside another number of frames taken in. -/
def usedIdle : State := { withPipe { decideArp.pipe with stage := .idle, drop := true, err := .noAction } with draws := 7 }

theorem witness_ResultsDoNotDependOnEarlierFrames :
    State.reset.params.distinct ∧ State.reset.params = usedIdle.params ∧ State.reset.cfg = usedIdle.cfg
      ∧ State.reset.agenda = [] ∧ usedIdle.agenda = []
      ∧ (∃ t, exec (.ingress (ethOf 0x86 0xDD) 3) usedIdle = .next t ∧ decide (t.pipe.stage = .parse) = true)
      ∧ ∃ s', exec (.ingress (ethOf 0x86 0xDD) 3) State.reset = .next s'
          ∧ nextIs (runOwn 5 s') (fun u => decide (u.pipe.stage = .done)) = true :=
  ⟨by decide, by decide, by decide, rfl, rfl, exists_next (by decide), exists_next (by decide)⟩

/-- The constants after reset, but for these two. -/
def paramsWith (maxFrameLen : Option Nat) (ttlZeroDrop : Bool) : Params :=
  { State.reset.params with maxFrameLen := maxFrameLen, ttlZeroDrop := ttlZeroDrop }

theorem witness_NonlocalRequestsLeaveByteForByteUnchanged :
    let bytes := ethOf 8 6 ++ arpCo2
    let s : State := { State.reset with params := paramsWith (some bytes.length) true }
    s.params.distinct ∧ s.agenda = [] ∧ s.pipe.stage = .idle ∧ (3 : Port) ≠ Config.noPort
      ∧ (∀ m, s.params.maxFrameLen = some m → bytes.length ≤ m) ∧ 42 ≤ bytes.length
      ∧ (bytes.drop 12).take 2 = [0x08#8, 0x06#8] ∧ (bytes.drop 20).take 2 = [0x00#8, 0x01#8]
      ∧ ¬ ∃ j : Fin 3, s.cfg.las[j].valid = true ∧ ipBytes s.cfg.las[j].addr = (bytes.drop 38).take 4 :=
  ⟨by decide, by decide, by decide, by decide, fun _ h => Nat.le_of_eq (Option.some.inj h), by decide, by decide, by decide,
    by decide⟩

/-- The frame of W2 with this TTL and a machine that forwards it meet the hypotheses of the end-to-end statement. -/
abbrev forwardsWithTtl (ttlZeroDrop : Bool) (ttl : Byte) : Prop :=
  let bytes := (ethOf 8 0 ++ ipv4Co9).set 22 ttl
  let s : State := { State.reset with cfg := { ft := ftW2, las := lasEmpty }, params := paramsWith (some 34) ttlZeroDrop }
  let h := unpackIpv4 (bitsOf 20 ((bytes.drop 14).take 20))
  (s.params.distinct ∧ s.agenda = [] ∧ s.pipe.stage = .idle ∧ (3 : Port) ≠ Config.noPort)
    ∧ (∀ m, s.params.maxFrameLen = some m → bytes.length ≤ m)
    ∧ (34 ≤ bytes.length ∧ (bytes.drop 12).take 2 = [0x08#8, 0x00#8] ∧ tableOk s.cfg.ft
      ∧ lookupRoute s.cfg.ft h.dst = some { port := 5, mac := 0xCCCCCCCCCCCC }
      ∧ (s.params.ttlZeroDrop = false ∨ 1 < h.ttl.toNat))

theorem witness_Ipv4FramesLeaveWithNewDestinationTtlAndChecksum : forwardsWithTtl false 0 ∧ forwardsWithTtl true 2 :=
  ⟨⟨by decide, fun _ h => Nat.le_of_eq (Option.some.inj h), by decide⟩,
    ⟨by decide, fun _ h => Nat.le_of_eq (Option.some.inj h), by decide⟩⟩

end Sys2Proof.Tests
end

section
/-! PROOF. What an append does to each address of a frame buffer (20_memory.md R80, R82). -/

namespace Sys2Proof.Machine

/-- After an append, an address reads the byte at its place in the old contents followed by the appended bytes. -/
theorem readByte_appendBytes {m : Memory} (h : m.wf) (bs : List Byte) (a : Nat) :
    readByte (appendBytes m bs) a = (contents m ++ bs)[a]? := by
  rw [readByte_of_wf (appendBytes_wf h bs), appendBytes_contents]

/-- Settles O10: both buffers read as their contents, so the split is the one of an index into a concatenation. -/
theorem appendedBytesReadBackAndOthersStay : Obligations.AppendedBytesReadBackAndOthersStay := by
  intro m bs h a
  rw [readByte_appendBytes h]
  split
  case isTrue old =>
    rw [List.getElem?_append_left (by rwa [contents_length]), readByte_of_wf h]
  case isFalse new =>
    rw [List.getElem?_append_right (by rw [contents_length]; exact Nat.le_of_not_lt new), contents_length]

end Sys2Proof.Machine
end

section
/-! PROOF. Reset: what power-on and block reset leave, and the invariant there (10_state.md R55, 70_reset_and_hazards.md R400,
R401). -/

namespace Sys2Proof.Machine

/-- Every pipeline of the machine at power-on has the reset values. -/
theorem eq_reset_of_mem_powerOn {p : Params} {las : Vector LasEntry 3} {others : Nat} {q : Pipe}
    (h : q ∈ (State.powerOn p las others).pipe :: (State.powerOn p las others).parked) : q = Pipe.reset := by
  rcases List.mem_cons.1 h with active | parked
  · exact active
  · exact List.eq_of_mem_replicate parked

/-- Settles O53: every pipeline at power-on is `Pipe.reset`, whose fields are the values R55 states. -/
theorem powerOnLeavesTheResetValues : Obligations.PowerOnLeavesTheResetValues := by
  intro p las others
  refine ⟨rfl, rfl, List.length_replicate, fun q hq => ?_⟩
  rw [eq_reset_of_mem_powerOn hq]
  exact ⟨rfl, rfl, rfl, rfl, rfl, rfl, rfl, rfl, rfl, rfl, rfl, rfl⟩

theorem tableOk_nil : tableOk [] := ⟨Nat.zero_le _, List.forall_mem_nil _, List.Pairwise.nil⟩

/-- A pipeline with the reset values is one after block reset, whatever it held before. -/
theorem pipeInv_powerOn (c : Params) : pipeInv c Pipe.reset := pipeInv_reset c Pipe.reset

theorem machineInv_powerOn {p : Params} (las : Vector LasEntry 3) (others : Nat) (h : p.distinct) :
    machineInv (State.powerOn p las others) := by
  refine ⟨h, tableOk_nil, pipeInv_powerOn p, fun q hq => ?_⟩
  rw [eq_reset_of_mem_powerOn (List.mem_cons_of_mem _ hq)]
  exact pipeInv_powerOn p

/-- Settles O54: the reset state is a power-on with the default parameters. -/
theorem invariantHoldsAtReset : Obligations.InvariantHoldsAtReset :=
  ⟨machineInv_powerOn lasEmpty 0 (by decide), fun _ las others h => machineInv_powerOn las others h⟩

/-- Every pipeline after block reset is a reset one. -/
theorem eq_resetPipe_of_mem_blockReset {s : State} {p : Pipe} (h : p ∈ (blockReset s).pipe :: (blockReset s).parked) :
    ∃ q, p = resetPipe q := by
  rcases List.mem_cons.1 h with active | parked
  · exact ⟨s.pipe, active⟩
  · obtain ⟨q, -, rfl⟩ := List.mem_map.1 parked
    exact ⟨q, rfl⟩

/-- Settles O45: the turn runs `blockReset`, which writes R55's first column into every pipeline and nothing else. -/
theorem blockResetIdlesEveryInstanceAndKeepsTheConfiguration :
    Obligations.BlockResetIdlesEveryInstanceAndKeepsTheConfiguration := by
  intro s hd ht
  have hstep : step s = .next (blockReset (popTurn s)) := by rw [step_of_distinct hd, ht]; rfl
  refine ⟨_, hstep, rfl, rfl, rfl, rfl, rfl, rfl, List.length_map .., fun p hp => ?_⟩
  obtain ⟨q, rfl⟩ := eq_resetPipe_of_mem_blockReset hp
  exact ⟨rfl, rfl, rfl, rfl, rfl, rfl, rfl, rfl, rfl, rfl, rfl, rfl, rfl, rfl⟩

end Sys2Proof.Machine
end

section
/-! PROOF. Reads of registers that hold no value (10_state.md R41, R55; 43_source_route.md R283; 60_exceptions.md R391). -/

namespace Sys2Proof.Machine

/-- An operation that begins with a read that stops is a fault. -/
theorem outcome_withVal_error {α : Type} {x : Except Fault α} {f : Fault} (k : α → Flow) (h : x = .error f) :
    (withVal x k).outcome = .fault f := by
  rw [h, withVal_error, outcome_stop]

theorem formDsk_of_invalid {s : State} (h : s.pipe.eth.valid = false) : formDsk s = .error .invalidEth := by
  rw [formDsk, readEth_of_invalid h]

theorem readIngressPort_of_unset {s : State} (h : s.pipe.ingressSet = false) :
    readIngressPort s = .error .noIngressPort := by
  simp [readIngressPort, h]

theorem readPayloadOff_of_unset {s : State} (h : s.pipe.payloadSet = false) :
    readPayloadOff s = .error .noPayloadOff := by
  simp [readPayloadOff, h]

theorem doSrPop_of_empty {s : State} (h : s.pipe.sr.len = 0) : doSrPop s = .stop .srIndex :=
  if_neg fun within => absurd (h ▸ within.1) (by decide)

/-- ARP_REPLY reads `hdr.eth`, then `hdr.arp`, then `meta.ingress_port`. -/
theorem execArpReply_of_valid_eth {s : State} (h : s.pipe.eth.valid = true) :
    exec .arpReply s = (withVal (readArp s) fun a => withVal (readIngressPort s) fun port =>
      .go (setEgress (setArp (setEth s (replyEth s.pipe.eth a)) (replyArp a)) port)).outcome := by
  show (doArpReply s).outcome = _
  rw [doArpReply, readEth_of_valid h, withVal_ok]

/-- Settles O52: each of these operations begins with the read that stops; in ARP_REPLY the reads before it succeed. -/
theorem readingWhatHoldsNoValueIsAFault : Obligations.ReadingWhatHoldsNoValueIsAFault := by
  intro s i
  refine ⟨fun eth => ?_, fun arp => ?_, fun ipv4 => ?_, fun outside => ?_, fun empty => ?_, fun payload => ?_,
    fun eth arp ingress => ?_⟩
  · have read := readEth_of_invalid eth
    exact ⟨outcome_withVal_error _ read, outcome_withVal_error _ read,
      outcome_withVal_error _ (formDsk_of_invalid eth), outcome_withVal_error _ read⟩
  · have read := readArp_of_invalid arp
    exact ⟨outcome_withVal_error _ read, outcome_withVal_error _ read, fun eth =>
      (execArpReply_of_valid_eth eth).trans (outcome_withVal_error _ read)⟩
  · have read := readIpv4_of_invalid ipv4
    exact ⟨outcome_withVal_error _ read, outcome_withVal_error _ read, outcome_withVal_error _ read,
      outcome_withVal_error _ read, outcome_withVal_error _ read, outcome_withVal_error _ read⟩
  · have read := readEntry_of_le outside
    exact ⟨outcome_withVal_error _ read, outcome_withVal_error _ read⟩
  · exact ⟨congrArg Flow.outcome (doSrPop_of_empty empty),
      outcome_withVal_error _ (readEntry_of_le (Nat.le_of_eq empty))⟩
  · exact outcome_withVal_error _ (readPayloadOff_of_unset payload)
  · rw [execArpReply_of_valid_eth eth, readArp_of_valid arp, withVal_ok]
    exact outcome_withVal_error _ (readIngressPort_of_unset ingress)

end Sys2Proof.Machine
end

section
/-! PROOF. How a flow of statements may end, as a triple: what holds where it goes on, and what holds where it has raised. -/

namespace Sys2Proof.Machine

/-- Where the flow goes on `G` holds, and where it has raised `R` holds (60_exceptions.md R376, R378). -/
def Flow.Ends (G R : State → Prop) : Flow → Prop
  | .go s => G s
  | .raised s => R s
  | .stop _ => True

theorem Flow.Ends.mono {G R G' R' : State → Prop} {x : Flow} (h : x.Ends G R) (hG : ∀ t, G t → G' t)
    (hR : ∀ t, R t → R' t) : x.Ends G' R' := by
  cases x with
  | go t => exact hG t h
  | raised t => exact hR t h
  | stop _ => trivial

/-- A raise ends the whole sequence; otherwise the second part begins where the first went on. -/
theorem Flow.Ends.andThen {G R G' R' : State → Prop} {x : Flow} {k : State → Flow} (h : x.Ends G R)
    (hR : ∀ t, R t → R' t) (hk : ∀ t, G t → (k t).Ends G' R') : (x.andThen k).Ends G' R' := by
  cases x with
  | go t => exact hk t h
  | raised t => exact hR t h
  | stop _ => trivial

theorem Flow.Ends.withVal {α : Type} {G R : State → Prop} {x : Except Fault α} {k : α → Flow}
    (h : ∀ a, x = .ok a → (k a).Ends G R) : (withVal x k).Ends G R := by
  cases x with
  | ok a => exact h a rfl
  | error _ => trivial

/-- The next state of an operation is one that its flow ends in. -/
theorem Flow.Ends.next {P : State → Prop} {x : Flow} {t : State} (h : x.Ends P P) (ht : x.outcome = .next t) : P t := by
  rcases outcome_eq_next ht with rfl | rfl <;> exact h

theorem add_le_size_of_memRead {m : Memory} {a n : Nat} {w : BitVec (8 * n)} (h : memRead m a n = .ok w) :
    a + n ≤ m.size := by
  rw [memRead] at h
  split at h
  case isTrue room => exact room
  case isFalse => cases h

end Sys2Proof.Machine
end

section
/-! PROOF. Everything an own step can do to the pipeline that takes it. The state around the pipeline does not change, so a step
is described by what becomes of the per-frame state alone. -/

namespace Sys2Proof.Machine

/-- `s` with a per-frame state that the move `M` leads to. -/
def State.movesBy (s : State) (M : Pipe → Prop) (t : State) : Prop := ∃ q, M q ∧ t = s.setPipe q

/-! ## The parser -/

/-- The branch of P_START on the type tag (41_parser.md R207 to R210). -/
def stateAfterEth (c : Params) (etype : Half) : PState :=
  if etype = Config.etherArp then .parseArp else if etype = c.srType then .parseSr
  else if etype = Config.etherIpv4 then .parseIpv4 else .accept

/-- A stack with one more entry (40_codec.md R163). -/
def SrStack.push (t : SrStack) (e : SrEntry) : SrStack := { len := t.len + 1, e := t.e.setIfInBounds t.len e }

/-- What one parser step can do (41_parser.md R200 to R213): raise a parse error, decode the one header its parser state names,
or accept. -/
inductive ParserMove (c : Params) (p : Pipe) : Pipe → Prop
  | error (e : Cause) (cause : e = .truncatedHeader ∨ e = .sourceRouteOverflow) :
    ParserMove c p { p with pstate := .reject, err := e, drop := true, stage := .done }
  | eth (e : Eth) (state : p.pstate = .start) (room : p.cur + 14 ≤ p.inBuf.size) (valid : e.valid = true) :
    ParserMove c p { p with eth := e, cur := p.cur + 14, pstate := stateAfterEth c e.etype }
  | arp (a : Arp) (state : p.pstate = .parseArp) (room : p.cur + 28 ≤ p.inBuf.size) (valid : a.valid = true) :
    ParserMove c p { p with arp := a, cur := p.cur + 28, pstate := .accept }
  | entry (e : SrEntry) (state : p.pstate = .parseSr) (room : p.cur + 2 ≤ p.inBuf.size)
      (free : p.sr.len < Config.srCapacity) :
    ParserMove c p { p with sr := p.sr.push e, cur := p.cur + 2, pstate := if e.bos then .parseIpv4 else .parseSr }
  | ipv4 (i : Ipv4) (state : p.pstate = .parseIpv4) (room : p.cur + 20 ≤ p.inBuf.size) (valid : i.valid = true) :
    ParserMove c p { p with ipv4 := i, cur := p.cur + 20, pstate := .accept }
  | accept (state : p.pstate = .accept) :
    ParserMove c p { p with payloadOff := p.cur, payloadSet := true, stage := .decide }

/-- The parser's moves of a machine's active pipeline. -/
abbrev State.parserMoves (s : State) : State → Prop := s.movesBy (ParserMove s.params s.pipe)

theorem parserMoves_truncated (s : State) : s.parserMoves (enterParseError s .truncatedHeader) :=
  ⟨_, .error _ (.inl rfl), rfl⟩

theorem doPSrOverflow_ends (s : State) : (doPSrOverflow s).Ends s.parserMoves s.parserMoves :=
  ⟨_, .error _ (.inr rfl), rfl⟩

/-- Decode a header, then go on: the part that P_START, P_ARP, P_SR and P_IPV4 share. In any buffer there is the parse error, or
the header's bits with the cursor after them, within the frame (40_codec.md R160). -/
theorem decodeThen_ends {s : State} {n : Nat} {k : State → BitVec (8 * n) → Flow} {k' : State → Flow}
    (long : ∀ w, s.pipe.cur + n ≤ s.pipe.inBuf.size →
      ((k (setCur s (s.pipe.cur + n)) w).andThen k').Ends s.parserMoves s.parserMoves) :
    ((decodeHeader s n k).andThen k').Ends s.parserMoves s.parserMoves := by
  rw [decodeHeader]
  split
  case isTrue => exact parserMoves_truncated s
  case isFalse =>
    cases hw : memRead s.pipe.inBuf s.pipe.cur n with
    | ok w => exact long w (add_le_size_of_memRead hw)
    | error _ => trivial

theorem doPStart_ends {s : State} (state : s.pipe.pstate = .start) :
    (doPStart s).Ends s.parserMoves s.parserMoves := by
  refine decodeThen_ends fun w room => ?_
  rw [andThen_go, readEth_of_valid rfl, withVal_ok, selectNext_start]
  exact ⟨_, .eth (unpackEth w) state room rfl, rfl⟩

theorem doPArp_ends {s : State} (state : s.pipe.pstate = .parseArp) :
    (doPArp s).Ends s.parserMoves s.parserMoves :=
  decodeThen_ends fun w room => ⟨_, .arp (unpackArp w) state room rfl, rfl⟩

theorem doPIpv4_ends {s : State} (state : s.pipe.pstate = .parseIpv4) :
    (doPIpv4 s).Ends s.parserMoves s.parserMoves :=
  decodeThen_ends fun w room => ⟨_, .ipv4 (unpackIpv4 w) state room rfl, rfl⟩

theorem doPAccept_ends {s : State} (state : s.pipe.pstate = .accept) :
    (doPAccept s).Ends s.parserMoves s.parserMoves := ⟨_, .accept state, rfl⟩

theorem SrStack.push_getElem?_top (t : SrStack) (e : SrEntry) (h : t.len < Config.srCapacity) :
    (t.push e).e[t.len]? = some e := by
  simp [SrStack.push, show t.len < 10 from h]

theorem SrStack.push_getElem?_below (t : SrStack) (e : SrEntry) {i : Nat} (h : i < t.len) :
    (t.push e).e[i]? = t.e[i]? := by
  simp [SrStack.push, Nat.ne_of_gt h]

/-- The entry that P_SR branches on is the one it has just appended. -/
theorem readEntry_push {s : State} {t : SrStack} {e : SrEntry} (hs : s.pipe.sr = t.push e)
    (h : t.len < Config.srCapacity) : readEntry s (s.pipe.sr.len - 1) = .ok e := by
  have within : t.len < (t.push e).len := Nat.lt_succ_self t.len
  rw [readEntry, hs, show (t.push e).len - 1 = t.len from rfl, if_pos within, SrStack.push_getElem?_top t e h]

theorem doPSr_ends {s : State} (state : s.pipe.pstate = .parseSr) :
    (doPSr s).Ends s.parserMoves s.parserMoves := by
  rw [doPSr]
  split
  case isTrue => exact doPSrOverflow_ends s
  case isFalse notFull =>
    refine decodeThen_ends fun w room => ?_
    split
    case isTrue free =>
      rw [andThen_go, readEntry_push rfl free, withVal_ok, Bool.eq_false_of_not_eq_true notFull, selectNext_sr,
        packSr_bit15]
      exact ⟨_, .entry (unpackSr w) state room free, rfl⟩
    case isFalse => trivial

/-! ## The decision stage -/

/-- The registers that the paths of the decision stage write before their verdict (42_decision.md R241). -/
def Pipe.rewrite (p : Pipe) (e : Eth) (a : Arp) (r : SrStack) (i : Ipv4) (v : Bool) (port : Port) : Pipe :=
  { p with eth := e, arp := a, sr := r, ipv4 := i, egressValid := v, egressPort := port }

/-- The causes of decision drops (60_exceptions.md R372). -/
abbrev isDropCause (c : Cause) : Prop := c = .noMatch ∨ c = .unhandledType ∨ c = .noAction ∨ c = .ttlExpired

/-- What one path of the decision stage can do (42_decision.md R241): give the frame an egress target, or drop it. A path keeps
`hdr.eth` valid and never lengthens the stack. -/
inductive DecisionMove (p : Pipe) : Pipe → Prop
  | forward (e : Eth) (a : Arp) (r : SrStack) (i : Ipv4) (port : Port) (eth : e.valid = p.eth.valid)
      (sr : r.len ≤ p.sr.len) : DecisionMove p (p.rewrite e a r i true port)
  | drop (e : Eth) (a : Arp) (r : SrStack) (i : Ipv4) (v : Bool) (port : Port) (c : Cause) (eth : e.valid = p.eth.valid)
      (sr : r.len ≤ p.sr.len) (cause : isDropCause c) :
    DecisionMove p { p.rewrite e a r i v port with err := c, drop := true }

/-- The decision stage's moves of a machine's active pipeline. -/
abbrev State.decisionMoves (s : State) : State → Prop := s.movesBy (DecisionMove s.pipe)

theorem raiseDrop_ends (s : State) {c : Cause} (cause : isDropCause c) :
    (raiseDrop s c).Ends s.decisionMoves s.decisionMoves :=
  ⟨_, .drop s.pipe.eth s.pipe.arp s.pipe.sr s.pipe.ipv4 s.pipe.egressValid s.pipe.egressPort c rfl (Nat.le_refl _) cause,
    rfl⟩

/-- TTL_DEC at the end of a path that has set the egress target (42_decision.md R251). -/
theorem doTtlDec_ends {s u : State} {e : Eth} {a : Arp} {r : SrStack} {i : Ipv4} {port : Port}
    (hu : u = s.setPipe (s.pipe.rewrite e a r i true port)) (eth : e.valid = s.pipe.eth.valid)
    (sr : r.len ≤ s.pipe.sr.len) : (doTtlDec u).Ends s.decisionMoves s.decisionMoves := by
  subst hu
  refine .withVal fun j _ => ?_
  split
  case isTrue => exact ⟨_, .drop e a r i true port .ttlExpired eth sr (.inr (.inr (.inr rfl))), rfl⟩
  case isFalse => exact ⟨_, .forward e a r _ port eth sr, rfl⟩

theorem doArpReply_ends (s : State) : (doArpReply s).Ends s.decisionMoves s.decisionMoves := by
  refine .withVal fun e he => .withVal fun a _ => .withVal fun port _ => ?_
  have heth : e = s.pipe.eth := by
    rw [readEth] at he
    split at he <;> cases he
    rfl
  subst heth
  exact ⟨_, .forward (replyEth s.pipe.eth a) (replyArp a) s.pipe.sr s.pipe.ipv4 port rfl (Nat.le_refl _), rfl⟩

theorem doArpNonlocal_ends (s : State) : (doArpNonlocal s).Ends s.decisionMoves s.decisionMoves :=
  ⟨_, .forward s.pipe.eth s.pipe.arp s.pipe.sr s.pipe.ipv4 Config.noPort rfl (Nat.le_refl _), rfl⟩

/-- SR_POP takes one entry off the stack or stops; it never raises (43_source_route.md R282). -/
theorem doSrPop_ends (s : State) : (doSrPop s).Ends
    (fun t => t = setSr s { len := s.pipe.sr.len - 1, e := shiftEntries s.pipe.sr.len s.pipe.sr.e }) fun _ => False := by
  rw [doSrPop]
  split
  case isTrue => exact rfl
  case isFalse => trivial

/-- The end of SR_HOP: TTL_DEC for a frame with a valid IPv4 header (43_source_route.md R281). -/
theorem ttlDecIfValid_ends {s u : State} {e : Eth} {a : Arp} {r : SrStack} {i : Ipv4} {port : Port}
    (hu : u = s.setPipe (s.pipe.rewrite e a r i true port)) (eth : e.valid = s.pipe.eth.valid)
    (sr : r.len ≤ s.pipe.sr.len) :
    (if u.pipe.ipv4.valid = true then doTtlDec u else .go u).Ends s.decisionMoves s.decisionMoves := by
  split
  case isTrue => exact doTtlDec_ends hu eth sr
  case isFalse => exact ⟨_, .forward e a r i port eth sr, hu⟩

theorem doSrHop_ends (s : State) : (doSrHop s).Ends s.decisionMoves s.decisionMoves := by
  refine .withVal fun e _ => (doSrPop_ends s).andThen (fun _ h => h.elim) ?_
  rintro _ rfl
  exact ttlDecIfValid_ends (a := s.pipe.arp) (i := s.pipe.ipv4) (retagIfLast_eq e _) rfl (Nat.sub_le _ 1)

theorem doIpv4FwdHit_ends (s : State) : (doIpv4FwdHit s).Ends s.decisionMoves s.decisionMoves := by
  refine .withVal fun i _ => ?_
  cases lpmLookup s i.dst with
  | none => trivial
  | some r => exact doTtlDec_ends rfl rfl (Nat.le_refl _)

theorem runDskRow_ends (r : DskRow) (s : State) : (runDskRow r s).Ends s.decisionMoves s.decisionMoves := by
  cases r with
  | arpReply => exact doArpReply_ends s
  | arpNonlocal => exact doArpNonlocal_ends s
  | arpNoaction => exact raiseDrop_ends s (.inr (.inr (.inl rfl)))
  | srHop => exact doSrHop_ends s
  | ipv4FwdHit => exact doIpv4FwdHit_ends s
  | ipv4FwdMiss => exact raiseDrop_ends s (.inl rfl)
  | fallbackDrop => exact raiseDrop_ends s (.inr (.inl rfl))

/-! ## The serializer -/

/-- A flow that appends bytes to `OUT` and does nothing else; it never raises. -/
abbrev Flow.Emits (s : State) (x : Flow) : Prop := x.Ends (fun t => ∃ bs, t = emit s bs) fun _ => False

theorem go_emits (s : State) : (Flow.go s).Emits s := ⟨[], (emit_nil s).symm⟩

theorem Flow.Emits.andThen {s : State} {x : Flow} {k : State → Flow} (h : x.Emits s) (hk : ∀ t, (k t).Emits t) :
    (x.andThen k).Emits s := by
  refine Flow.Ends.andThen h (fun _ h => h) ?_
  rintro _ ⟨xs, rfl⟩
  refine (hk _).mono ?_ fun _ h => h
  rintro _ ⟨ys, rfl⟩
  exact ⟨xs ++ ys, emit_emit s xs ys⟩

theorem emits_if {s : State} {x : Flow} (v : Bool) (h : x.Emits s) : (if v = true then x else .go s).Emits s := by
  cases v with
  | true => exact h
  | false => exact go_emits s

theorem doEncEth_emits (s : State) : (doEncEth s).Emits s := .withVal fun _ _ => ⟨_, rfl⟩
theorem doEncArp_emits (s : State) : (doEncArp s).Emits s := .withVal fun _ _ => ⟨_, rfl⟩
theorem doEncSr_emits (i : Nat) (s : State) : (doEncSr i s).Emits s := .withVal fun _ _ => ⟨_, rfl⟩
theorem doEncIpv4_emits (s : State) : (doEncIpv4 s).Emits s := .withVal fun _ _ => ⟨_, rfl⟩

theorem doEmitEntries_emits (s : State) (i k : Nat) : (doEmitEntries s i k).Emits s := by
  induction k generalizing s i with
  | zero => exact go_emits s
  | succ k ih => exact (doEncSr_emits i s).andThen fun t => ih t (i + 1)

theorem doEmitPayload_emits (s : State) : (doEmitPayload s).Emits s := by
  refine .withVal fun off _ => ?_
  split
  · exact ⟨_, rfl⟩
  · trivial

theorem doEmitAll_emits (s : State) : (doEmitAll s).Emits s := by
  have headers := ((emits_if s.pipe.eth.valid (doEncEth_emits s)).andThen fun t =>
    emits_if t.pipe.arp.valid (doEncArp_emits t)).andThen fun t => doEmitEntries_emits t 0 t.pipe.sr.len
  exact headers.andThen fun t => (emits_if t.pipe.ipv4.valid (doEncIpv4_emits t)).andThen doEmitPayload_emits

/-- DEPARSE appends to `OUT`, and nothing for a dropped frame, and moves to DONE (46_deparser.md R350). -/
theorem doDeparse_ends (s : State) : (doDeparse s).Ends
    (fun t => ∃ bs, (dropped s.pipe = true → bs = []) ∧ t = setStage (emit s bs) .done) fun _ => False := by
  rw [doDeparse]
  split
  case isTrue => exact ⟨[], fun _ => rfl, by rw [emit_nil]⟩
  case isFalse kept =>
    refine Flow.Ends.andThen (doEmitAll_emits s) (fun _ h => h) ?_
    rintro _ ⟨bs, rfl⟩
    exact ⟨bs, fun gone => absurd gone kept, rfl⟩

/-! ## The step -/

/-- What one own step can do to the pipeline that takes it, stage by stage (10_state.md R31). -/
inductive OwnMove (c : Params) (p : Pipe) : Pipe → Prop
  | parse {q : Pipe} (stage : p.stage = .parse) (move : ParserMove c p q) : OwnMove c p q
  | decide {q : Pipe} (stage : p.stage = .decide) (move : DecisionMove p q) : OwnMove c p { q with stage := .csum }
  | csum (i : Ipv4) (stage : p.stage = .csum) (valid : i.valid = p.ipv4.valid)
      (sum : i.valid = true → i.checksum = checksumIpv4 i) : OwnMove c p { p with ipv4 := i, stage := .deparse }
  | deparse (bs : List Byte) (stage : p.stage = .deparse) (gone : dropped p = true → bs = []) :
    OwnMove c p { p with outBuf := appendBytes p.outBuf bs, stage := .done }

theorem ownStep_parse_moves {s t : State} (stage : s.pipe.stage = .parse) (h : ownStep s = .next t) :
    s.parserMoves t := by
  rw [ownStep_parse stage] at h
  cases state : s.pipe.pstate <;> rw [state] at h
  case start => exact (doPStart_ends state).next h
  case parseArp => exact (doPArp_ends state).next h
  case parseSr =>
    dsimp only at h
    split at h
    · exact (doPSrOverflow_ends s).next h
    · exact (doPSr_ends state).next h
  case parseIpv4 => exact (doPIpv4_ends state).next h
  case accept => exact (doPAccept_ends state).next h
  case reject => cases h

theorem ownStep_decide_moves {s t : State} (stage : s.pipe.stage = .decide) (h : ownStep s = .next t) :
    ∃ u, s.decisionMoves u ∧ t = setStage u .csum := by
  rw [ownStep_decide stage] at h
  split at h
  · cases h
  · split at h
    · next r _ =>
      obtain ⟨u, hu, rfl⟩ := onNext_eq_next h
      exact ⟨u, (runDskRow_ends r s).next hu, rfl⟩
    · cases h

/-- Everything an own step can do: it replaces the per-frame state of the active pipeline by one its stage's move leads to. -/
theorem ownStep_moves {s t : State} (h : ownStep s = .next t) : s.movesBy (OwnMove s.params s.pipe) t := by
  cases stage : s.pipe.stage with
  | idle =>
    rw [ownStep_idle stage] at h
    cases h
  | parse =>
    obtain ⟨q, move, rfl⟩ := ownStep_parse_moves stage h
    exact ⟨q, .parse stage move, rfl⟩
  | decide =>
    obtain ⟨_, ⟨q, move, rfl⟩, rfl⟩ := ownStep_decide_moves stage h
    exact ⟨_, .decide stage move, rfl⟩
  | csum =>
    rw [ownStep_csum stage] at h
    split at h
    case isTrue =>
      cases h
      exact ⟨_, .csum { s.pipe.ipv4 with checksum := checksumIpv4 s.pipe.ipv4 } stage rfl fun _ =>
        (checksumIpv4_update _ _).symm, rfl⟩
    case isFalse invalid =>
      cases h
      exact ⟨_, .csum s.pipe.ipv4 stage rfl fun valid => absurd valid invalid, rfl⟩
  | deparse =>
    rw [ownStep_deparse stage] at h
    obtain ⟨bs, gone, rfl⟩ := ((doDeparse_ends s).mono (fun _ h => h) fun _ h => h.elim).next h
    exact ⟨_, .deparse bs stage gone, rfl⟩
  | done =>
    rw [ownStep_done stage] at h
    cases h

/-- A step in the active pipeline's own turn, its turn taken off the agenda. -/
theorem step_own_moves {s t : State} (turn : ownTurn s) (h : step s = .next t) :
    (popTurn s).movesBy (OwnMove s.params s.pipe) t := by
  rw [step_own (distinct_of_step h) turn] at h
  exact ownStep_moves h

end Sys2Proof.Machine
end

section
/-! PROOF. What an own step keeps and in which order the stages come (10_state.md R31, R33, R47; 60_exceptions.md R377). -/

namespace Sys2Proof.Machine

/-- A parser step stays in PARSE, accepts into DECIDE, or ends in DONE with the parser state REJECT. -/
theorem ParserMove.stage {c : Params} {p q : Pipe} (h : ParserMove c p q) :
    q.stage = p.stage ∨ q.stage = .decide ∨ (q.stage = .done ∧ q.pstate = .reject) := by
  cases h with
  | error => exact .inr (.inr ⟨rfl, rfl⟩)
  | accept => exact .inr (.inl rfl)
  | eth | arp | entry | ipv4 => exact .inl rfl

/-- Settles O49: the stage of each move's constructor is the one before it, and its result has the one after it. -/
theorem stagesFollowEachOtherInStrictOrder : Obligations.StagesFollowEachOtherInStrictOrder := by
  intro s t turn h
  obtain ⟨q, move, rfl⟩ := step_own_moves turn h
  cases move with
  | parse stage move => exact .inl ⟨stage, move.stage.imp_left (·.trans stage)⟩
  | decide stage => exact .inr (.inl ⟨stage, rfl⟩)
  | csum i stage => exact .inr (.inr (.inl ⟨stage, rfl⟩))
  | deparse bs stage => exact .inr (.inr (.inr ⟨stage, rfl⟩))

/-- The parts of the per-frame state that no own step writes, and the cursor, which never moves backwards. -/
structure SharedKept (p q : Pipe) : Prop where
  inBuf : q.inBuf = p.inBuf
  ingressPort : q.ingressPort = p.ingressPort
  ingressSet : q.ingressSet = p.ingressSet
  older : q.older = p.older
  drawId : q.drawId = p.drawId
  cur : p.cur ≤ q.cur

theorem ParserMove.sharedKept {c : Params} {p q : Pipe} (h : ParserMove c p q) : SharedKept p q := by
  cases h with
  | error | accept => exact ⟨rfl, rfl, rfl, rfl, rfl, Nat.le_refl _⟩
  | eth | arp | entry | ipv4 => exact ⟨rfl, rfl, rfl, rfl, rfl, Nat.le_add_right _ _⟩

theorem DecisionMove.sharedKept {p q : Pipe} (h : DecisionMove p q) : SharedKept p q := by
  cases h with
  | forward | drop => exact ⟨rfl, rfl, rfl, rfl, rfl, Nat.le_refl _⟩

theorem OwnMove.sharedKept {c : Params} {p q : Pipe} (h : OwnMove c p q) : SharedKept p q := by
  cases h with
  | parse _ move => exact move.sharedKept
  | decide _ move =>
    obtain ⟨inBuf, ingressPort, ingressSet, older, drawId, cur⟩ := move.sharedKept
    exact ⟨inBuf, ingressPort, ingressSet, older, drawId, cur⟩
  | csum | deparse => exact ⟨rfl, rfl, rfl, rfl, rfl, Nat.le_refl _⟩

/-- Settles O50: the step writes the active pipeline's per-frame state alone, and there it keeps what `SharedKept` names. -/
theorem ownStepsLeaveEverythingSharedUnchanged : Obligations.OwnStepsLeaveEverythingSharedUnchanged := by
  intro s t turn h
  obtain ⟨q, move, rfl⟩ := step_own_moves turn h
  obtain ⟨inBuf, ingressPort, ingressSet, older, drawId, cur⟩ := move.sharedKept
  exact ⟨rfl, rfl, rfl, rfl, rfl, rfl, rfl, inBuf, ingressPort, ingressSet, older, drawId, cur⟩

/-- A parser step records a parse error's cause with the drop flag, or touches neither. -/
theorem ParserMove.cause {c : Params} {p q : Pipe} (h : ParserMove c p q) :
    (q.err = p.err ∧ q.drop = p.drop) ∨ ((q.err = .truncatedHeader ∨ q.err = .sourceRouteOverflow) ∧ q.drop = true) := by
  cases h with
  | error e cause => exact .inr ⟨cause, rfl⟩
  | eth | arp | entry | ipv4 | accept => exact .inl ⟨rfl, rfl⟩

/-- A decision step records a decision drop's cause with the drop flag, or touches neither. -/
theorem DecisionMove.cause {p q : Pipe} (h : DecisionMove p q) :
    (q.err = p.err ∧ q.drop = p.drop) ∨ (isDropCause q.err ∧ q.drop = true) := by
  cases h with
  | forward => exact .inl ⟨rfl, rfl⟩
  | drop e a r i v port c eth sr cause => exact .inr ⟨cause, rfl⟩

/-- An own step records a cause, with the drop flag, only in PARSE and DECIDE, and else touches neither. -/
theorem OwnMove.cause {c : Params} {p q : Pipe} (h : OwnMove c p q) :
    (q.err = p.err ∧ q.drop = p.drop)
      ∨ (p.stage = .parse ∧ (q.err = .truncatedHeader ∨ q.err = .sourceRouteOverflow) ∧ q.drop = true)
      ∨ (p.stage = .decide ∧ isDropCause q.err ∧ q.drop = true) := by
  cases h with
  | parse stage move => exact move.cause.imp_right fun error => .inl ⟨stage, error⟩
  | decide stage move => exact move.cause.imp_right fun drop => .inr ⟨stage, drop⟩
  | csum | deparse => exact .inl ⟨rfl, rfl⟩

/-- In the two stages that record causes, a frame with the invariant has none yet. -/
theorem err_none_of_undecided_stage {c : Params} {p : Pipe} (h : pipeInv c p)
    (stage : p.stage = .parse ∨ p.stage = .decide) : p.err = .none := by
  obtain ⟨-, parse, decide, -⟩ := h
  rcases stage with stage | stage
  · obtain ⟨⟨-, -, -, err, -⟩, -⟩ := parse stage
    exact err
  · obtain ⟨⟨-, -, -, err, -⟩, -⟩ := decide stage
    exact err

/-- Settles O51: by the move's causes; a frame that has a cause is past the stages that record one. -/
theorem causesAreRecordedOnlyByTheirStage : Obligations.CausesAreRecordedOnlyByTheirStage := by
  intro s t turn h
  obtain ⟨q, move, rfl⟩ := step_own_moves turn h
  rcases move.cause with ⟨err, drop⟩ | ⟨stage, err, drop⟩ | ⟨stage, err, drop⟩
  · exact ⟨.inl err, fun dropped => drop.trans dropped, fun _ _ => err⟩
  · exact ⟨.inr (.inl ⟨stage, err⟩), fun _ => drop,
      fun ⟨_, _, inv, _⟩ had => absurd (err_none_of_undecided_stage inv (.inl stage)) had⟩
  · exact ⟨.inr (.inr ⟨stage, err⟩), fun _ => drop,
      fun ⟨_, _, inv, _⟩ had => absurd (err_none_of_undecided_stage inv (.inr stage)) had⟩

end Sys2Proof.Machine
end

section
/-! PROOF. The per-frame invariant under an own step, move by move. -/

namespace Sys2Proof.Machine

/-- What the invariant says of a pipeline's buffers in every stage (10_state.md R33, R47). -/
abbrev buffersInv (p : Pipe) : Prop :=
  p.inBuf.wf ∧ p.outBuf.wf ∧ p.cur ≤ p.inBuf.size ∧ ∀ o ∈ p.older, tableOk o.ft

/-! ## The invariant in one stage -/

theorem pipeInv_of_parse {c : Params} {p : Pipe} (stage : p.stage = .parse) (buffers : buffersInv p)
    (h : undecided p ∧ p.payloadSet = false ∧ parsedSoFar c p) : pipeInv c p := by
  refine ⟨buffers, fun _ => h, ?_, ?_, ?_, ?_⟩ <;> rw [stage] <;> nofun

theorem pipeInv_of_decide {c : Params} {p : Pipe} (stage : p.stage = .decide) (buffers : buffersInv p)
    (h : undecided p ∧ p.payloadSet = true ∧ p.payloadOff = p.cur ∧ p.pstate = .accept ∧ acceptedStack c p) :
    pipeInv c p := by
  refine ⟨buffers, ?_, fun _ => h, ?_, ?_, ?_⟩ <;> rw [stage] <;> nofun

theorem pipeInv_of_csum {c : Params} {p : Pipe} (stage : p.stage = .csum) (buffers : buffersInv p)
    (h : decided p ∧ readyToEmit p) : pipeInv c p := by
  refine ⟨buffers, ?_, ?_, fun _ => h, ?_, ?_⟩ <;> rw [stage] <;> nofun

theorem pipeInv_of_deparse {c : Params} {p : Pipe} (stage : p.stage = .deparse) (buffers : buffersInv p)
    (h : decided p ∧ readyToEmit p ∧ (p.ipv4.valid = true → p.ipv4.checksum = checksumIpv4 p.ipv4)) :
    pipeInv c p := by
  refine ⟨buffers, ?_, ?_, ?_, fun _ => h, ?_⟩ <;> rw [stage] <;> nofun

theorem pipeInv_of_done {c : Params} {p : Pipe} (stage : p.stage = .done) (buffers : buffersInv p)
    (h : decided p ∧ (p.drop = true → p.outBuf = [])) : pipeInv c p := by
  refine ⟨buffers, ?_, ?_, ?_, ?_, fun _ => h⟩ <;> rw [stage] <;> nofun

/-! ## The source-route stack that P_SR builds -/

/-- The entries of a stack stay open when an open one is appended. -/
theorem openEntries_push {t : SrStack} {e : SrEntry} (h : openEntries t t.len) (free : t.len < Config.srCapacity)
    (bos : e.bos = false) : openEntries (t.push e) (t.push e).len := by
  intro i hi
  rcases Nat.lt_or_eq_of_le (Nat.le_of_lt_succ hi) with below | rfl
  · rw [t.push_getElem?_below e below]
    exact h i below
  · rw [t.push_getElem?_top e free, Option.map_some, bos]

/-- A stack of open entries is whole when the bottom-of-stack entry is appended (41_parser.md R215). -/
theorem wholeStack_push {t : SrStack} {e : SrEntry} (h : openEntries t t.len) (free : t.len < Config.srCapacity)
    (bos : e.bos = true) : wholeStack (t.push e) := by
  refine ⟨Nat.le_add_left 1 t.len, free, fun i (below : i < t.len) => ?_, ?_⟩
  · rw [t.push_getElem?_below e below]
    exact h i below
  · rw [show (t.push e).len - 1 = t.len from rfl, t.push_getElem?_top e free, Option.map_some, bos]

/-! ## What the parser has decoded, after each of its steps -/

section
variable {c : Params} {p : Pipe} (h : parsedSoFar c p)
include h

theorem parsedSoFar_eth {e : Eth} (state : p.pstate = .start) (valid : e.valid = true) :
    parsedSoFar c { p with eth := e, cur := p.cur + 14, pstate := stateAfterEth c e.etype } := by
  obtain ⟨start, -⟩ := h
  obtain ⟨cur, -, arp, sr, ipv4⟩ := start state
  have cur' : p.cur + 14 = 14 := by rw [cur]
  rw [stateAfterEth]
  split
  case isTrue isArp => exact ⟨nofun, fun _ => ⟨cur', valid, isArp, arp, sr, ipv4⟩, nofun, nofun, nofun, nofun⟩
  case isFalse notArp =>
  split
  case isTrue isSr =>
    refine ⟨nofun, nofun, fun _ => ⟨?_, valid, isSr, arp, ?_, ?_, ipv4⟩, nofun, nofun, nofun⟩
    · rw [sr]
      exact cur'
    · rw [sr]
      exact Nat.zero_le _
    · rw [sr]
      nofun
  case isFalse notSr =>
  split
  case isTrue isIpv4 =>
    refine ⟨nofun, nofun, nofun, fun _ => ⟨?_, valid, arp, ipv4, .inl ⟨isIpv4, sr⟩⟩, nofun, nofun⟩
    rw [sr]
    exact cur'
  case isFalse notIpv4 =>
    exact ⟨nofun, nofun, nofun, nofun,
      fun _ => ⟨valid, .inr (.inr (.inr ⟨⟨notArp, notSr, notIpv4⟩, arp, sr, ipv4, cur'⟩))⟩, nofun⟩

theorem parsedSoFar_arp {a : Arp} (state : p.pstate = .parseArp) (valid : a.valid = true) :
    parsedSoFar c { p with arp := a, cur := p.cur + 28, pstate := .accept } := by
  obtain ⟨-, arp, -⟩ := h
  obtain ⟨cur, eth, isArp, -, sr, ipv4⟩ := arp state
  have cur' : p.cur + 28 = 42 := by rw [cur]
  exact ⟨nofun, nofun, nofun, nofun, fun _ => ⟨eth, .inl ⟨isArp, valid, sr, ipv4, cur'⟩⟩, nofun⟩

theorem parsedSoFar_entry {e : SrEntry} (state : p.pstate = .parseSr) (free : p.sr.len < Config.srCapacity) :
    parsedSoFar c
      { p with sr := p.sr.push e, cur := p.cur + 2, pstate := if e.bos then .parseIpv4 else .parseSr } := by
  obtain ⟨-, -, entry, -⟩ := h
  obtain ⟨cur, eth, isSr, arp, -, opened, ipv4⟩ := entry state
  have cur' : p.cur + 2 = 14 + 2 * (p.sr.push e).len := by
    rw [cur]
    rfl
  split
  case isTrue last =>
    exact ⟨nofun, nofun, nofun,
      fun _ => ⟨cur', eth, arp, ipv4, .inr ⟨isSr, wholeStack_push opened free last⟩⟩, nofun, nofun⟩
  case isFalse more =>
    have bos : e.bos = false := Bool.eq_false_of_not_eq_true more
    exact ⟨nofun, nofun, fun _ => ⟨cur', eth, isSr, arp, free, openEntries_push opened free bos, ipv4⟩, nofun, nofun,
      nofun⟩

theorem parsedSoFar_ipv4 {i : Ipv4} (state : p.pstate = .parseIpv4) (valid : i.valid = true) :
    parsedSoFar c { p with ipv4 := i, cur := p.cur + 20, pstate := .accept } := by
  obtain ⟨-, -, -, ipv4, -⟩ := h
  obtain ⟨cur, eth, arp, -, stack⟩ := ipv4 state
  have cur' : p.cur + 20 = 34 + 2 * p.sr.len := by omega
  refine ⟨nofun, nofun, nofun, nofun, fun _ => ⟨eth, ?_⟩, nofun⟩
  rcases stack with ⟨isIpv4, sr⟩ | ⟨isSr, whole⟩
  · have cur'' : p.cur + 20 = 34 := by rw [cur', sr]
    exact .inr (.inr (.inl ⟨isIpv4, arp, sr, valid, cur''⟩))
  · exact .inr (.inl ⟨isSr, arp, whole, valid, cur'⟩)

end

/-! ## The moves -/

theorem pipeInv_parserMove {c : Params} {p q : Pipe} (h : pipeInv c p) (stage : p.stage = .parse)
    (move : ParserMove c p q) : pipeInv c q := by
  have ⟨⟨inBuf, outBuf, cur, older⟩, parse, _⟩ := h
  obtain ⟨fresh, payload, parsed⟩ := parse stage
  have ⟨noOut, _⟩ := fresh
  cases move with
  | error e cause => exact pipeInv_parseError (by rcases cause with rfl | rfl <;> nofun) h noOut
  | eth e state room valid =>
    exact pipeInv_of_parse stage ⟨inBuf, outBuf, room, older⟩ ⟨fresh, payload, parsedSoFar_eth parsed state valid⟩
  | arp a state room valid =>
    exact pipeInv_of_parse stage ⟨inBuf, outBuf, room, older⟩ ⟨fresh, payload, parsedSoFar_arp parsed state valid⟩
  | entry e state room free =>
    exact pipeInv_of_parse stage ⟨inBuf, outBuf, room, older⟩ ⟨fresh, payload, parsedSoFar_entry parsed state free⟩
  | ipv4 i state room valid =>
    exact pipeInv_of_parse stage ⟨inBuf, outBuf, room, older⟩ ⟨fresh, payload, parsedSoFar_ipv4 parsed state valid⟩
  | accept state =>
    obtain ⟨-, -, -, -, accepted, -⟩ := parsed
    exact pipeInv_of_decide rfl ⟨inBuf, outBuf, cur, older⟩ ⟨fresh, rfl, rfl, state, accepted state⟩

/-- The stacks that the parser accepts have a valid Ethernet header and at most ten entries. -/
theorem acceptedStack_bounds {c : Params} {p : Pipe} (h : acceptedStack c p) :
    p.eth.valid = true ∧ p.sr.len ≤ Config.srCapacity := by
  obtain ⟨eth, ⟨-, -, sr, -⟩ | ⟨-, -, ⟨-, sr, -⟩, -⟩ | ⟨-, -, sr, -⟩ | ⟨-, -, sr, -⟩⟩ := h
  · exact ⟨eth, sr ▸ Nat.zero_le _⟩
  · exact ⟨eth, sr⟩
  · exact ⟨eth, sr ▸ Nat.zero_le _⟩
  · exact ⟨eth, sr ▸ Nat.zero_le _⟩

theorem pipeInv_decisionMove {c : Params} {p q : Pipe} (h : pipeInv c p) (stage : p.stage = .decide)
    (move : DecisionMove p q) : pipeInv c { q with stage := .csum } := by
  obtain ⟨buffers, -, decide, -⟩ := h
  obtain ⟨⟨noOut, -, noDrop, noErr, -⟩, payload, off, state, accepted⟩ := decide stage
  obtain ⟨ethValid, bound⟩ := acceptedStack_bounds accepted
  cases move with
  | forward e a r i port eth sr =>
    have verdict : p.drop = true ↔ p.err ≠ .none := by simp [noDrop, noErr]
    exact pipeInv_of_csum rfl buffers
      ⟨⟨verdict, .inr rfl⟩, eth.trans ethValid, Nat.le_trans sr bound, state, payload, off, noOut⟩
  | drop e a r i v port c eth sr cause =>
    have recorded : c ≠ .none := by rcases cause with rfl | rfl | rfl | rfl <;> nofun
    exact pipeInv_of_csum rfl buffers
      ⟨⟨iff_of_true rfl recorded, .inl rfl⟩, eth.trans ethValid, Nat.le_trans sr bound, state, payload, off, noOut⟩

/-- Every own move keeps the invariant of the pipeline that takes it. -/
theorem pipeInv_ownMove {c : Params} {p q : Pipe} (h : pipeInv c p) (move : OwnMove c p q) : pipeInv c q := by
  cases move with
  | parse stage move => exact pipeInv_parserMove h stage move
  | decide stage move => exact pipeInv_decisionMove h stage move
  | csum i stage valid sum =>
    obtain ⟨buffers, -, -, csum, -⟩ := h
    obtain ⟨verdict, ready⟩ := csum stage
    exact pipeInv_of_deparse rfl buffers ⟨verdict, ready, sum⟩
  | deparse bs stage gone =>
    obtain ⟨⟨inBuf, outBuf, cur, older⟩, -, -, -, deparse, -⟩ := h
    obtain ⟨verdict, ⟨-, -, -, -, -, noOut⟩, -⟩ := deparse stage
    refine pipeInv_of_done rfl ⟨inBuf, appendBytes_wf outBuf bs, cur, older⟩ ⟨verdict, fun (drop : p.drop = true) => ?_⟩
    have nothing : bs = [] := gone (by simp [dropped, drop])
    rw [nothing, appendBytes_nil, noOut]

end Sys2Proof.Machine
end

section
/-! PROOF. The legal forwarding table under FT_INSTALL (20_memory.md R92; 44_lpm.md R303). -/

namespace Sys2Proof.Machine

/-- An accepted length keeps its value in the six bits of the register (20_memory.md R92). -/
theorem setWidth_plen_toNat {plen : BitVec 8} (h : plen.toNat ≤ 32) : (plen.setWidth 6).toNat = plen.toNat := by
  rw [BitVec.toNat_setWidth]
  omega

/-- FT_INSTALL of a present key: the entries that have it get a new port and next hop (20_memory.md R92). -/
abbrev rerouted (k : Ip × BitVec 6) (port : Port) (mac : Mac) (e : FtEntry) : FtEntry :=
  if hasKey k e then { e with port := port, mac := mac } else e

theorem rerouted_cases (k : Ip × BitVec 6) (port : Port) (mac : Mac) (e : FtEntry) :
    rerouted k port mac e = e ∨ rerouted k port mac e = { e with port := port, mac := mac } := by
  rw [rerouted]
  split
  case isTrue => exact .inr rfl
  case isFalse => exact .inl rfl

theorem rerouted_key (k : Ip × BitVec 6) (port : Port) (mac : Mac) (e : FtEntry) :
    ftKey (rerouted k port mac e).pfx (rerouted k port mac e).plen = ftKey e.pfx e.plen := by
  rcases rerouted_cases k port mac e with same | changed
  · rw [same]
  · rw [changed]

theorem tableOk_rerouted {ft : List FtEntry} {port : Port} (h : tableOk ft) (hp : port ≠ Config.noPort)
    (k : Ip × BitVec 6) (mac : Mac) : tableOk (ft.map (rerouted k port mac)) := by
  obtain ⟨size, legal, unique⟩ := h
  refine ⟨by rwa [List.length_map], fun e he => ?_, ?_⟩
  · obtain ⟨old, mem, rfl⟩ := List.mem_map.1 he
    obtain ⟨valid, plen, noPort⟩ := legal old mem
    rcases rerouted_cases k port mac old with same | changed
    · rw [same]
      exact ⟨valid, plen, noPort⟩
    · rw [changed]
      exact ⟨valid, plen, hp⟩
  · rw [List.pairwise_map]
    simpa only [rerouted_key] using unique

theorem tableOk_append {ft : List FtEntry} {new : FtEntry} (h : tableOk ft) (room : ft.length < Config.ftCapacity)
    (legal : new.valid = true ∧ new.plen.toNat ≤ 32 ∧ new.port ≠ Config.noPort)
    (unused : ∀ e ∈ ft, ftKey e.pfx e.plen ≠ ftKey new.pfx new.plen) : tableOk (ft ++ [new]) := by
  obtain ⟨-, legal', unique⟩ := h
  refine ⟨by simpa using room, fun e he => ?_, ?_⟩
  · rcases List.mem_append.1 he with old | added
    · exact legal' e old
    · rw [List.mem_singleton.1 added]
      exact legal
  · refine List.pairwise_append.2 ⟨unique, List.pairwise_singleton _ _, fun e he f hf => ?_⟩
    rw [List.mem_singleton.1 hf]
    exact unused e he

/-- An accepted FT_INSTALL leaves a legal table (20_memory.md R92). -/
theorem tableOk_installRoute {ft ft' : List FtEntry} {pfx : Ip} {plen : BitVec 8} {port : Port} {mac : Mac}
    (h : tableOk ft) (hi : installRoute ft pfx plen port mac = some ft') : tableOk ft' := by
  rw [installRoute] at hi
  split at hi
  case isTrue => cases hi
  case isFalse accepted =>
    have plenOk : plen.toNat ≤ 32 := by omega
    have portOk : port ≠ Config.noPort := fun hp => accepted (.inr hp)
    dsimp only at hi
    split at hi
    case isTrue =>
      cases hi
      exact tableOk_rerouted h portOk _ mac
    case isFalse absent =>
      have ⟨_, legal, _⟩ := h
      have valid : ∀ e ∈ ft, e.valid = true := fun e he => (legal e he).1
      rw [putFree_of_valid _ _ _ valid] at hi
      split at hi
      case isFalse => cases hi
      case isTrue room =>
        cases hi
        refine tableOk_append h room ⟨rfl, (setWidth_plen_toNat plenOk).trans_le plenOk, portOk⟩ fun e he key => ?_
        exact absent (List.any_eq_true.2 ⟨e, he, by rw [hasKey_of_valid (valid e he)]; exact decide_eq_true key⟩)

end Sys2Proof.Machine
end

section
/-! PROOF. The machine's invariant under each kind of turn. -/

namespace Sys2Proof.Machine

theorem machineInv_popTurn {s : State} (h : machineInv s) : machineInv (popTurn s) := h

/-- A turn that replaces only the active pipeline's per-frame state keeps the machine's invariant when it keeps that one's. -/
theorem machineInv_setPipe {s : State} {q : Pipe} (h : machineInv s) (hq : pipeInv s.params q) :
    machineInv (s.setPipe q) := by
  obtain ⟨params, table, -, parked⟩ := h
  exact ⟨params, table, hq, parked⟩

theorem machineInv_ownStep {s t : State} (h : machineInv s) (ht : ownStep s = .next t) : machineInv t := by
  obtain ⟨q, move, rfl⟩ := ownStep_moves ht
  have ⟨_, _, active, _⟩ := h
  exact machineInv_setPipe h (pipeInv_ownMove active move)

/-! ## The host's calls -/

theorem machineInv_execIngress {s t : State} {bytes : List Byte} {port : Port} (h : machineInv s)
    (ht : execIngress bytes port s = .next t) : machineInv t := by
  rw [execIngress] at ht
  split at ht
  case isTrue => cases ht
  case isFalse =>
  split at ht
  case isTrue => cases ht
  case isFalse portOk =>
  split at ht
  case isTrue => cases ht
  case isFalse =>
    cases ht
    exact machineInv_setPipe h (pipeInv_startFrame s.params s.pipe bytes port s.draws portOk)

theorem machineInv_execEgress {s t : State} (h : machineInv s) (ht : execEgress s = .next t) : machineInv t := by
  have ⟨_, _, active, _⟩ := h
  rw [execEgress] at ht
  split at ht
  case isTrue => cases ht
  case isFalse =>
    cases hr : egressResult s <;> rw [hr] at ht <;> cases ht
    have idle := machineInv_setPipe h (pipeInv_idle active)
    exact idle

theorem machineInv_execFtInstall {s t : State} {pfx : Ip} {plen : BitVec 8} {port : Port} {mac : Mac}
    (h : machineInv s) (ht : execFtInstall pfx plen port mac s = .next t) : machineInv t := by
  have ⟨_, table, _, _⟩ := h
  rw [execFtInstall] at ht
  cases hi : installRoute s.cfg.ft pfx plen port mac <;> rw [hi] at ht <;> cases ht
  case none => exact h
  case some ft => exact machineInv_publish (c := { s.cfg with ft := ft }) (tableOk_installRoute table hi) h

theorem machineInv_execLasConfigure {s t : State} {a0 a1 a2 : Option Ip} (h : machineInv s)
    (ht : execLasConfigure a0 a1 a2 s = .next t) : machineInv t := by
  have ⟨_, table, _, _⟩ := h
  cases ht
  exact machineInv_publish table h

theorem machineInv_hostCall {s t : State} {i : Instr} (h : machineInv s) (call : i.isHostCall = true)
    (ht : exec i s = .next t) : machineInv t := by
  cases i
  case ingress => exact machineInv_execIngress h ht
  case egress => exact machineInv_execEgress h ht
  case ftInstall => exact machineInv_execFtInstall h ht
  case lasConfigure => exact machineInv_execLasConfigure h ht
  all_goals cases call

theorem machineInv_hostStep {s t : State} {w : List Byte} (h : machineInv s) (ht : hostStep w s = .next t) :
    machineInv t := by
  rw [hostStep] at ht
  split at ht
  · split at ht
    case isTrue call => exact machineInv_hostCall h call ht
    case isFalse => cases ht
  · cases ht

/-! ## The other turns -/

theorem machineInv_switchPipe {s t : State} {k : Nat} (h : machineInv s) (ht : switchPipe s k = some t) :
    machineInv t := by
  obtain ⟨params, table, active, parked⟩ := h
  rw [switchPipe] at ht
  cases hp : s.parked[k]? <;> rw [hp] at ht <;> cases ht
  case some p =>
    refine ⟨params, table, parked p (List.mem_of_getElem? hp), fun q hq => ?_⟩
    rcases List.mem_or_eq_of_mem_set hq with old | rfl
    · exact parked q old
    · exact active

theorem machineInv_blockReset {s : State} (h : machineInv s) : machineInv (blockReset s) := by
  obtain ⟨params, table, -, -⟩ := h
  refine ⟨params, table, pipeInv_reset _ _, fun p hp => ?_⟩
  obtain ⟨q, rfl⟩ := eq_resetPipe_of_mem_blockReset (List.mem_cons_of_mem _ hp)
  exact pipeInv_reset _ _

theorem machineInv_takeTurn {s t : State} (turn : Turn) (h : machineInv s) (ht : takeTurn turn s = .next t) :
    machineInv t := by
  cases turn with
  | own => exact machineInv_ownStep h ht
  | call w => exact machineInv_hostStep h ht
  | switchTo k =>
    rw [takeTurn] at ht
    cases hs : switchPipe s k <;> rw [hs] at ht <;> cases ht
    exact machineInv_switchPipe h hs
  | blockReset =>
    cases ht
    exact machineInv_blockReset h

/-- Settles O55: the invariant does not speak of the agenda, and each kind of turn keeps it. -/
theorem everyStepKeepsTheInvariant : Obligations.EveryStepKeepsTheInvariant := by
  intro s t h ht
  rw [step_of_distinct (distinct_of_step ht)] at ht
  exact machineInv_takeTurn (turnOf s) (machineInv_popTurn h) ht

end Sys2Proof.Machine
end

section
/-! PROOF. The configuration as a frame sees it: publishing, the frame's snapshot, and LAS_CONFIGURE (20_memory.md R89, R90,
R93). -/

namespace Sys2Proof.Machine

/-- A pipeline keeps a replaced snapshot in the two stages between its frame's ingress and its configuration read. -/
theorem supersede_eq (p : Pipe) (old : Snapshot) :
    p.supersede old
      = { p with older := if p.stage = .parse ∨ p.stage = .decide then old :: p.older else p.older } := by
  rw [Pipe.supersede]
  split
  next stage => rw [if_pos (.inl stage)]
  next stage => rw [if_pos (.inr stage)]
  all_goals next stage => rw [if_neg (by simp [stage])]

/-- Settles O43: `supersede_eq` for the active pipeline and for each parked one. -/
theorem publishingKeepsTheOldSnapshotForFramesInFlight :
    Obligations.PublishingKeepsTheOldSnapshotForFramesInFlight := by
  intro s c
  exact ⟨rfl, supersede_eq s.pipe s.cfg, List.map_congr_left fun p _ => supersede_eq p s.cfg, rfl⟩

/-- The draw is taken modulo the number of snapshots the frame may read, so it never falls outside them. -/
theorem snapshot_mem (s : State) : s.snapshot ∈ s.cfg :: s.pipe.older := by
  cases replaced : s.pipe.older with
  | nil =>
    rw [snapshot_of_none_replaced replaced]
    exact List.mem_singleton_self _
  | cons o os =>
    have within : Config.snapshotDraw s.pipe.drawId % (os.length + 2) < (s.cfg :: o :: os).length :=
      Nat.mod_lt _ (Nat.succ_pos _)
    rw [State.snapshot, replaced]
    dsimp only
    rw [List.getElem?_eq_getElem within, Option.getD_some]
    exact List.getElem_mem within

/-- Settles O33. -/
theorem frameReadsASnapshotCurrentSinceItsIngress : Obligations.FrameReadsASnapshotCurrentSinceItsIngress :=
  fun s => ⟨snapshot_mem s, snapshot_of_none_replaced⟩

theorem lasEntry_some (a : Ip) (old : LasEntry) : lasEntry (some a) old = { valid := true, addr := a } := rfl

theorem lasEntry_none_valid (old : LasEntry) : (lasEntry none old).valid = false := rfl

/-- A written entry register is valid with an address exactly when that address was given for it (20_memory.md R93). -/
theorem lasEntry_holds_iff (given : Option Ip) (old : LasEntry) (a : Ip) :
    ((lasEntry given old).valid = true ∧ (lasEntry given old).addr = a) ↔ some a = given := by
  cases given with
  | some x => simp [lasEntry_some, eq_comm]
  | none => simp [lasEntry_none_valid]

/-- Settles O42: the three registers are written each from its own argument, and `lasEntry` says what each then holds. -/
theorem lasConfigureReplacesTheLocalAddresses : Obligations.LasConfigureReplacesTheLocalAddresses := by
  intro s a0 a1 a2
  refine ⟨_, rfl, fun a => ?_, fun j => ?_⟩
  · simp [Fin.exists_fin_succ, lasEntry_holds_iff]
  · fin_cases j
    · cases a0 <;> rfl
    · cases a1 <;> rfl
    · cases a2 <;> rfl

end Sys2Proof.Machine
end

section
/-! PROOF. The transport's calls INGRESS and EGRESS, and which operations a host may call (20_memory.md R94 to R96). -/

namespace Sys2Proof.Machine

/-- DROPPED as the three conditions of 46_deparser.md R358. -/
theorem dropped_iff (p : Pipe) :
    dropped p = true ↔ p.err ≠ .none ∨ p.drop = true ∨ p.egressValid = false := by
  simp [dropped, or_assoc]

/-- The three cases of 46_deparser.md R358. -/
def Pipe.result (p : Pipe) : EgressResult :=
  if p.err ≠ .none ∨ p.drop = true ∨ p.egressValid = false then
    { verdict := .drop, port := none, bytes := [], cause := p.err }
  else if p.egressPort = Config.noPort then
    { verdict := .sentinel, port := some Config.noPort, bytes := contents p.outBuf, cause := .none }
  else { verdict := .forward, port := some p.egressPort, bytes := contents p.outBuf, cause := .none }

/-- The verdict never stops: a frame that is not dropped has an egress port to read. -/
theorem egressResult_eq (s : State) : egressResult s = .ok s.pipe.result := by
  rw [egressResult, Pipe.result]
  by_cases gone : s.pipe.err ≠ .none ∨ s.pipe.drop = true ∨ s.pipe.egressValid = false
  · rw [if_pos ((dropped_iff _).2 gone), if_pos gone]
  · have target : s.pipe.egressValid = true := by simpa using fun h => gone (.inr (.inr h))
    rw [if_neg fun h => gone ((dropped_iff _).1 h), if_neg gone, readEgressPort, if_pos target]
    dsimp only
    split
    case isTrue sentinel => rw [sentinel]
    case isFalse => rfl

theorem execEgressVerdict_eq (s : State) :
    exec .egressVerdict s = .next { s with ret := .verdict s.pipe.result } := by
  show (withVal (egressResult s) _).outcome = _
  rw [egressResult_eq]
  rfl

theorem execEgress_of_done {s : State} (h : s.pipe.stage = .done) :
    exec .egress s = .next
      { s with pipe := { s.pipe with stage := .idle }, delivered := s.delivered ++ [s.pipe.result] } := by
  show execEgress s = _
  rw [execEgress, if_neg (not_not_intro h), egressResult_eq]
  rfl

theorem execEgress_of_not_done {s : State} (h : s.pipe.stage ≠ .done) :
    exec .egress s = .refused .egressNotDone := if_pos h

/-- Settles O38: both operations hand over `Pipe.result`, which is never missing. -/
theorem egressHandsOverTheVerdict : Obligations.EgressHandsOverTheVerdict :=
  fun s => ⟨s.pipe.result, execEgressVerdict_eq s, rfl, execEgress_of_done, execEgress_of_not_done⟩

/-- INGRESS's length check, for a bounded and for an unbounded `MAX_FRAME_LEN` (20_memory.md R80). -/
theorem tooLong_iff (bound : Option Nat) (n : Nat) :
    (bound.map fun m => decide (m < n)) = some true ↔ ∃ m, bound = some m ∧ m < n := by
  simp [Option.map_eq_some_iff]

theorem execIngress_of_accepted {s : State} {bytes : List Byte} {port : Port} (idle : s.pipe.stage = .idle)
    (real : port ≠ Config.noPort) (fits : ∀ m, s.params.maxFrameLen = some m → bytes.length ≤ m) :
    execIngress bytes port s = .next { s with pipe := startFrame s.pipe bytes port s.draws, draws := s.draws + 1 } := by
  have notLong : ¬ ∃ m, s.params.maxFrameLen = some m ∧ m < bytes.length := by
    rintro ⟨m, bound, long⟩
    exact Nat.not_lt.2 (fits m bound) long
  rw [execIngress, if_neg (not_not_intro idle), if_neg real, if_neg (mt (tooLong_iff _ _).1 notLong)]

/-- Settles O39: the three checks in their order; behind them the frame is laid out in canonical form. -/
theorem ingressStartsAFrameOrIsRefused : Obligations.IngressStartsAFrameOrIsRefused := by
  intro s bytes port
  refine ⟨fun idle real fits => ⟨bufferOf bytes, bufferOf_wf bytes, bufferOf_contents bytes,
    execIngress_of_accepted idle real fits⟩, fun busy => if_pos busy, fun idle sentinel => ?_, fun idle real long => ?_⟩
  · show execIngress bytes port s = _
    rw [execIngress, if_neg (not_not_intro idle), if_pos sentinel]
  · show execIngress bytes port s = _
    rw [execIngress, if_neg (not_not_intro idle), if_neg real, if_pos ((tooLong_iff _ _).2 long)]

/-- A host's turn whose word decodes runs the operation if it is one of the host's four (20_memory.md R94). -/
theorem step_call_of_decode {s : State} {w : List Byte} {i : Instr} (hd : s.params.distinct)
    (turn : turnOf s = .call w) (word : decode s.params w = .ok i) :
    step s = if i.isHostCall then exec i (popTurn s) else .refused .notHostCall := by
  rw [step_of_distinct hd, turn, takeTurn, hostStep, popTurn_params, word]

/-- Settles O44: `Instr.isHostCall` is true of the four host operations and false of every other. -/
theorem hostCallsOfOtherOperationsAreRefused : Obligations.HostCallsOfOtherOperationsAreRefused := by
  intro s w i hd turn word
  rw [step_call_of_decode hd turn word]
  cases i with
  | ingress | egress | ftInstall | lasConfigure => exact if_pos rfl
  | _ => exact if_neg Bool.false_ne_true

end Sys2Proof.Machine
end

section
/-! PROOF. FT_INSTALL: when it is accepted, the table it leaves, and what lookups find there (20_memory.md R92; 44_lpm.md R301
to R303). -/

namespace Sys2Proof.Machine

/-! ## The table an install leaves -/

/-- In a legal table, having a key and being valid with it are the same. -/
theorem any_hasKey_iff {ft : List FtEntry} (h : tableOk ft) (k : Ip × BitVec 6) :
    ft.any (hasKey k) = true ↔ ∃ e ∈ ft, ftKey e.pfx e.plen = k := by
  obtain ⟨-, legal, -⟩ := h
  rw [List.any_eq_true]
  refine exists_congr fun e => and_congr_right fun he => ?_
  rw [hasKey_of_valid (legal e he).1, decide_eq_true_iff]

/-- In a legal table, the entries that an install of a present key changes are those with that key. -/
theorem map_rerouted_eq {ft : List FtEntry} (h : tableOk ft) (k : Ip × BitVec 6) (port : Port) (mac : Mac) :
    ft.map (rerouted k port mac)
      = ft.map fun e => if ftKey e.pfx e.plen = k then { e with port := port, mac := mac } else e := by
  obtain ⟨-, legal, -⟩ := h
  refine List.map_congr_left fun e he => ?_
  simp only [rerouted, hasKey_of_valid (legal e he).1, decide_eq_true_iff]

section
variable {ft : List FtEntry} {pfx : Ip} {plen : BitVec 8} {port : Port} {mac : Mac}

theorem installRoute_of_illegal (h : 32 < plen.toNat ∨ port = Config.noPort) :
    installRoute ft pfx plen port mac = none := if_pos h

theorem installRoute_of_known (table : tableOk ft) (legal : ¬ (32 < plen.toNat ∨ port = Config.noPort))
    (known : ∃ e ∈ ft, ftKey e.pfx e.plen = ftKey pfx (plen.setWidth 6)) :
    installRoute ft pfx plen port mac = some (ft.map (rerouted (ftKey pfx (plen.setWidth 6)) port mac)) := by
  rw [installRoute, if_neg legal]
  exact if_pos ((any_hasKey_iff table _).2 known)

theorem installRoute_of_new (table : tableOk ft) (legal : ¬ (32 < plen.toNat ∨ port = Config.noPort))
    (new : ¬ ∃ e ∈ ft, ftKey e.pfx e.plen = ftKey pfx (plen.setWidth 6)) :
    installRoute ft pfx plen port mac = if ft.length < Config.ftCapacity then
      some (ft ++ [{ valid := true, pfx := pfx, plen := plen.setWidth 6, port := port, mac := mac }]) else none := by
  have ⟨_, valid, _⟩ := table
  rw [installRoute, if_neg legal]
  dsimp only
  rw [if_neg (mt (any_hasKey_iff table _).1 new), putFree_of_valid _ _ _ fun e he => (valid e he).1]

end

theorem execFtInstall_of_none {s : State} {pfx : Ip} {plen : BitVec 8} {port : Port} {mac : Mac}
    (h : installRoute s.cfg.ft pfx plen port mac = none) :
    exec (.ftInstall pfx plen port mac) s = .next { s with ret := .installed false } := by
  show execFtInstall pfx plen port mac s = _
  rw [execFtInstall, h]
  rfl

theorem execFtInstall_of_some {s : State} {pfx : Ip} {plen : BitVec 8} {port : Port} {mac : Mac} {ft : List FtEntry}
    (h : installRoute s.cfg.ft pfx plen port mac = some ft) :
    exec (.ftInstall pfx plen port mac) s
      = .next { publish s { s.cfg with ft := ft } with ret := .installed true } := by
  show execFtInstall pfx plen port mac s = _
  rw [execFtInstall, h]
  rfl

/-- Settles O40: `installRoute` case by case, an illegal call, a known key, a new key with and without a free register; an
accepted table is legal by `tableOk_installRoute`. -/
theorem ftInstallReplacesOrAddsOrRefuses : Obligations.FtInstallReplacesOrAddsOrRefuses := by
  intro s pfx plen port mac table
  rw [BitVec.ofNat_toNat]
  intro key known refused
  have ⟨size, _⟩ := table
  refine ⟨fun no => execFtInstall_of_none ?_, fun accepted => ?_⟩
  · by_cases illegal : 32 < plen.toNat ∨ port = Config.noPort
    · exact installRoute_of_illegal illegal
    · obtain ⟨new, full⟩ : ¬ known ∧ s.cfg.ft.length = 1024 := by tauto
      have noRoom : ¬ s.cfg.ft.length < Config.ftCapacity := Nat.not_lt.2 (Nat.le_of_eq full.symm)
      rw [installRoute_of_new table illegal new, if_neg noRoom]
  · have legal : ¬ (32 < plen.toNat ∨ port = Config.noPort) := by tauto
    by_cases old : known
    · have install := installRoute_of_known (mac := mac) table legal old
      exact ⟨_, execFtInstall_of_some install, tableOk_installRoute table install,
        fun _ => map_rerouted_eq table key port mac, fun new => absurd old new⟩
    · have room : s.cfg.ft.length < Config.ftCapacity :=
        Nat.lt_of_le_of_ne size fun full => accepted (.inr (.inr ⟨old, full⟩))
      have install := installRoute_of_new (mac := mac) table legal old
      rw [if_pos room] at install
      exact ⟨_, execFtInstall_of_some install, tableOk_installRoute table install,
        fun known => absurd known old, fun _ => rfl⟩

/-! ## Lookups in that table -/

/-- What an accepted install does to the entries, known key or new: one entry with the key has the route, and the entries with
other keys are those of the old table. -/
structure Installed (k : Ip × BitVec 6) (r : Route) (ft ft' : List FtEntry) : Prop where
  unique : ft'.Pairwise fun a b => ftKey a.pfx a.plen ≠ ftKey b.pfx b.plen
  entry : ∃ e ∈ ft', e.valid = true ∧ ftKey e.pfx e.plen = k ∧ { port := e.port, mac := e.mac } = r
  others : ∀ e, ftKey e.pfx e.plen ≠ k → (e ∈ ft' ↔ e ∈ ft)

theorem mem_map_rerouted_iff {ft : List FtEntry} {k : Ip × BitVec 6} {port : Port} {mac : Mac} {e : FtEntry}
    (h : ftKey e.pfx e.plen ≠ k) : e ∈ ft.map (rerouted k port mac) ↔ e ∈ ft := by
  have kept : ∀ old, ftKey old.pfx old.plen ≠ k → rerouted k port mac old = old := fun old other =>
    if_neg (by simp [hasKey, other])
  rw [List.mem_map]
  constructor
  · rintro ⟨old, mem, rfl⟩
    rw [rerouted_key] at h
    rwa [kept old h]
  · exact fun mem => ⟨e, mem, kept e h⟩

theorem installed_of_installRoute {ft ft' : List FtEntry} {pfx : Ip} {plen : BitVec 8} {port : Port} {mac : Mac}
    (table : tableOk ft) (install : installRoute ft pfx plen port mac = some ft') :
    Installed (ftKey pfx (plen.setWidth 6)) { port := port, mac := mac } ft ft' := by
  obtain ⟨-, -, unique⟩ := tableOk_installRoute table install
  have ⟨_, valid, _⟩ := table
  have legal : ¬ (32 < plen.toNat ∨ port = Config.noPort) := fun illegal => by
    rw [installRoute_of_illegal illegal] at install
    cases install
  by_cases known : ∃ e ∈ ft, ftKey e.pfx e.plen = ftKey pfx (plen.setWidth 6)
  · rw [installRoute_of_known table legal known] at install
    obtain rfl := Option.some.inj install
    obtain ⟨e, he, key⟩ := known
    have changed : rerouted (ftKey pfx (plen.setWidth 6)) port mac e = { e with port := port, mac := mac } :=
      if_pos (by rw [hasKey_of_valid (valid e he).1, key, decide_eq_true rfl])
    exact ⟨unique, ⟨_, List.mem_map.2 ⟨e, he, changed⟩, (valid e he).1, key, rfl⟩, fun _ => mem_map_rerouted_iff⟩
  · rw [installRoute_of_new table legal known] at install
    split at install
    case isFalse => cases install
    case isTrue =>
      obtain rfl := Option.some.inj install
      refine ⟨unique, ⟨_, List.mem_append_right _ (List.mem_singleton_self _), rfl, rfl, rfl⟩, fun e other => ?_⟩
      rw [List.mem_append, List.mem_singleton, or_iff_left]
      rintro rfl
      exact other rfl

/-- Which addresses a valid entry matches is told by its key alone. -/
theorem hits_iff_of_ftKey_eq {e : FtEntry} {pfx a : Ip} {l : BitVec 6} (valid : e.valid = true)
    (key : ftKey e.pfx e.plen = ftKey pfx l) : e.hits a = true ↔ agreeOnTop l.toNat a pfx := by
  obtain ⟨masked, plen⟩ := Prod.mk.inj key
  rw [FtEntry.hits, valid, Bool.true_and, decide_eq_true_iff, masked, plen, masked_eq_iff]

/-- A lookup after an install. Where the new route's key matches and no old match is longer, the entry with its key is a longest
match. Everywhere else an old longest match has another key, so it is still in the table and still a longest match. -/
theorem Installed.lookupRoute_eq {ft ft' : List FtEntry} {pfx a : Ip} {l : BitVec 6} {r : Route}
    (h : Installed (ftKey pfx l) r ft ft') :
    lookupRoute ft' a =
      if agreeOnTop l.toNat a pfx ∧ (∀ e ∈ ft, matchesAddr e a → e.plen.toNat ≤ l.toNat) then some r
      else lookupRoute ft a := by
  obtain ⟨unique, ⟨g, mem, valid, key, route⟩, others⟩ := h
  have plen_of_key : ∀ {f : FtEntry}, ftKey f.pfx f.plen = ftKey pfx l → f.plen = l := congrArg Prod.snd
  have agree_of_key : ∀ {f : FtEntry}, f.hits a = true → ftKey f.pfx f.plen = ftKey pfx l →
      agreeOnTop l.toNat a pfx := fun hit key => by
    obtain ⟨valid, -⟩ := (hits_iff _ a).1 hit
    exact (hits_iff_of_ftKey_eq valid key).1 hit
  split
  case isTrue longest =>
    obtain ⟨agree, bound⟩ := longest
    have found : longestMatch a ft' = some g := by
      refine longestMatch_eq_some unique mem ((hits_iff_of_ftKey_eq valid key).2 agree) fun f hf hit => ?_
      rw [plen_of_key key]
      by_cases same : ftKey f.pfx f.plen = ftKey pfx l
      · rw [plen_of_key same]
      · exact bound f ((others f same).1 hf) ((hits_iff f a).1 hit)
    rw [lookupRoute, found, Option.map_some, route]
  case isFalse beaten =>
    have other : ∀ f : FtEntry, f.hits a = true → (∀ e ∈ ft, e.hits a = true → e.plen.toNat ≤ f.plen.toNat) →
        ftKey f.pfx f.plen ≠ ftKey pfx l := fun f hit top same =>
      beaten ⟨agree_of_key hit same, fun e he ma => plen_of_key same ▸ top e he ((hits_iff e a).2 ma)⟩
    suffices longestMatch a ft' = longestMatch a ft by rw [lookupRoute, this, lookupRoute]
    cases before : longestMatch a ft with
    | none =>
      have none_hits := (longestMatch_eq_none_iff a ft).1 before
      refine (longestMatch_eq_none_iff a ft').2 fun f hf => Bool.eq_false_iff.2 fun hit => ?_
      have old := (others f (other f hit fun e he ma => absurd ma (Bool.eq_false_iff.1 (none_hits e he)))).1 hf
      exact absurd hit (Bool.eq_false_iff.1 (none_hits f old))
    | some y =>
      obtain ⟨hy, hit, top⟩ := (longestMatch_spec a ft).2 y before
      have otherKey := other y hit top
      refine longestMatch_eq_some unique ((others y otherKey).2 hy) hit fun f hf hf_hit => ?_
      by_cases same : ftKey f.pfx f.plen = ftKey pfx l
      · by_contra shorter
        exact other f hf_hit (fun e he ma => Nat.le_trans (top e he ma) (Nat.le_of_not_le shorter)) same
      · exact top f ((others f same).1 hf) hf_hit

/-- Settles O41: an answer "installed" comes from an accepted install, and there `Installed.lookupRoute_eq` holds. -/
theorem installedRouteIsFoundWhereNoLongerPrefixMatches :
    Obligations.InstalledRouteIsFoundWhereNoLongerPrefixMatches := by
  intro s t pfx plen port mac a table run accepted
  cases install : installRoute s.cfg.ft pfx plen port mac with
  | none =>
    rw [execFtInstall_of_none install] at run
    cases run
    cases accepted
  | some ft =>
    have legal : plen.toNat ≤ 32 := by
      by_contra illegal
      rw [installRoute_of_illegal (.inl (Nat.lt_of_not_le illegal))] at install
      cases install
    rw [execFtInstall_of_some install] at run
    cases run
    have lookup := (installed_of_installRoute table install).lookupRoute_eq (a := a)
    rwa [setWidth_plen_toNat legal] at lookup

end Sys2Proof.Machine
end

section
/-! PROOF. Reading back the parts of an operation word: its operands, its select key, and the row that key matches
(30_encoding.md R120 to R123). -/

namespace Sys2Proof.Machine

/-! ## Operands, most significant byte first -/

theorem port_of_portBytes (a : Port) : a.extractLsb' 8 8 ++ a.extractLsb' 0 8 = a :=
  (slices_join a 0 8 8 8 rfl).trans (slice_whole a)

theorem ip_of_ipBytes (a : Ip) :
    a.extractLsb' 24 8 ++ a.extractLsb' 16 8 ++ a.extractLsb' 8 8 ++ a.extractLsb' 0 8 = a := by
  rw [slices_join a 16 8 8 24 rfl, slices_join a 8 8 _ 16 rfl, slices_join a 0 8 _ 8 rfl]
  exact slice_whole a

theorem mac_of_macBytes (a : Mac) :
    a.extractLsb' 40 8 ++ a.extractLsb' 32 8 ++ a.extractLsb' 24 8 ++ a.extractLsb' 16 8 ++ a.extractLsb' 8 8
      ++ a.extractLsb' 0 8 = a := by
  rw [slices_join a 32 8 8 40 rfl, slices_join a 24 8 _ 32 rfl, slices_join a 16 8 _ 24 rfl,
    slices_join a 8 8 _ 16 rfl, slices_join a 0 8 _ 8 rfl]
  exact slice_whole a

/-- An optional address is read back, and the bytes after it are left. -/
theorem takeOptIp_optIpBytes (a : Option Ip) (w : List Byte) : takeOptIp (optIpBytes a ++ w) = some (a, w) := by
  cases a with
  | none => rfl
  | some a =>
    show some (some _, w) = some (some a, w)
    rw [ip_of_ipBytes]

/-! ## Four bits in a byte -/

theorem nibble_high (k : BitVec 4) : (0#4 ++ k).extractLsb' 4 4 = 0#4 :=
  (slice_upper 0#4 k 0 4 4 rfl).trans (slice_whole 0#4)

theorem nibble_low (k : BitVec 4) : (0#4 ++ k).extractLsb' 0 4 = k :=
  (slice_lower 0#4 k 0 4 (Nat.le_refl 4)).trans (slice_whole k)

theorem vkOfByte_nibble (k : BitVec 4) : vkOfByte (0#4 ++ k) = .ok k := by
  rw [vkOfByte, if_pos (nibble_high k), nibble_low]

theorem entryIndexOf_nibble {i : BitVec 4} (h : entryIndexOk i = true) : entryIndexOf (0#4 ++ i) = .ok i := by
  rw [entryIndexOf, nibble_low, if_pos ⟨nibble_high i, h⟩]

/-! ## Select keys, least significant byte first -/

theorem key_of_keyBytes (k : BitVec 24) : k.extractLsb' 16 8 ++ k.extractLsb' 8 8 ++ k.extractLsb' 0 8 = k := by
  rw [slices_join k 8 8 8 16 rfl, slices_join k 0 8 _ 8 rfl]
  exact slice_whole k

/-- A slice of a slice. -/
theorem slice_slice {w : Nat} (h : BitVec w) (s n k l : Nat) (e : k + l ≤ n) :
    (h.extractLsb' s n).extractLsb' k l = h.extractLsb' (s + k) l := by
  apply BitVec.eq_of_getLsbD_eq
  intro i hi
  have inside : k + i < n := by omega
  simp [hi, inside, Nat.add_assoc]

theorem pskOfBytes_keyBytes (k : BitVec 20) : pskOfBytes (keyBytes (0#4 ++ k)) = .ok k := by
  have reserved : ((0#4 ++ k).extractLsb' 16 8).extractLsb' 4 4 = 0#4 := by
    rw [slice_slice _ 16 8 4 4 (Nat.le_refl 8), slice_upper 0#4 k 0 4 20 rfl, slice_whole]
  rw [keyBytes, pskOfBytes, if_pos reserved, key_of_keyBytes, slice_lower 0#4 k 0 20 (Nat.le_refl 20), slice_whole]

theorem rowOf_of_firstRow {w : Nat} {α : Type} {rows : List (KeyRow w α)} {k : BitVec w} {a : α}
    (row : firstRow rows k = some a) : rowOf rows (.ok k) = .ok a := by
  rw [rowOf, row]

/-! ## The word of a select key decodes to the operation of the first row the key matches -/

theorem decode_pskState {k : BitVec 20} {i : Instr} (p : Params) (row : firstRow pskStateRows k = some i) :
    decode p (pskWord fmtPskState k) = .ok i := by
  show rowOf pskStateRows (pskOfBytes (keyBytes (0#4 ++ k))) = _
  rw [pskOfBytes_keyBytes, rowOf_of_firstRow row]

theorem decode_pskSelect {p : Params} {k : BitVec 20} {r : SelRow} (row : firstRow (pskSelectRows p) k = some r) :
    decode p (pskWord fmtPskSelect k) = .ok r.op := by
  show (match rowOf (pskSelectRows p) (pskOfBytes (keyBytes (0#4 ++ k))) with
    | .ok r => Except.ok r.op
    | .error e => .error e) = _
  rw [pskOfBytes_keyBytes, rowOf_of_firstRow row]

theorem decode_dsk {p : Params} {k : BitVec 24} {r : DskRow} (row : firstRow (dskRows p) k = some r) :
    decode p (dskWord k) = .ok r.op := by
  rw [decode_dskWord, row]

/-! ## The row that an operation's own key matches first -/

theorem otherTypeTag_ne (p : Params) :
    otherTypeTag p ≠ p.srType ∧ otherTypeTag p ≠ Config.etherArp ∧ otherTypeTag p ≠ Config.etherIpv4 := by
  unfold otherTypeTag
  split
  case isTrue zero => exact ⟨zero ▸ by decide, by decide, by decide⟩
  case isFalse nonzero => exact ⟨Ne.symm nonzero, by decide, by decide⟩

/-- A bare type tag is the key that START forms with room on the stack (30_encoding.md R120). -/
theorem firstRow_typeTag (p : Params) (t : Half) :
    firstRow (pskSelectRows p) (0#4 ++ t) = some
      (if t = Config.etherArp then .startArp else if t = p.srType then .startSr
       else if t = Config.etherIpv4 then .startIpv4 else .startOther) :=
  firstRow_pskStart p false t

/-- The overflow key has the state code of PARSE_SR, so no row of START takes it. -/
theorem firstRow_srOverflow (p : Params) : firstRow (pskSelectRows p) 0xA0000#20 = some .srOverflow := by
  have notTag (c : Half) : ¬ (0xA0000#20 &&& 0x7FFFF#20 = 0#4 ++ c) := by
    rw [show 0xA0000#20 &&& 0x7FFFF#20 = 2#4 ++ 0#16 by decide, append_eq_iff]
    exact fun h => absurd h.1 (by decide)
  have notStart : ¬ (0xA0000#20 &&& 0x70000#20 = 0x00000#20) := by decide
  have full : 0xA0000#20 &&& 0xF0000#20 = 0xA0000#20 := by decide
  simp only [pskSelectRows, firstRow, notTag, notStart, full, if_false, if_true]

/-- The row of a decision key given by its type tag and its low byte. -/
theorem firstRow_dskParts {p : Params} (hp : p.distinct) (ty : Half) {low : BitVec 8} (av sn iv rq il hit : Bool)
    (parts : low = dskLow av sn iv rq il hit) :
    firstRow (dskRows p) (ty ++ low) = some
      (if ty = Config.etherArp ∧ av = true then
        if rq = true then (if il = true then .arpReply else .arpNonlocal) else .arpNoaction
       else if ty = p.srType ∧ sn = true then .srHop
       else if ty = Config.etherIpv4 ∧ iv = true then (if hit = true then .ipv4FwdHit else .ipv4FwdMiss)
       else .fallbackDrop) := by
  rw [parts, ← dskKey_eq, firstRow_dsk p hp]

end Sys2Proof.Machine
end

section
/-! PROOF. Every operation's own word decodes to that operation (30_encoding.md R120 to R123). -/

namespace Sys2Proof.Machine

/-! ## The rows that carry operands -/

theorem decode_encode_lasMember (p : Params) (a : Ip) : decode p (encode p (.lasMember a)) = .ok (.lasMember a) := by
  show Except.ok (Instr.lasMember _) = _
  rw [ip_of_ipBytes]

theorem decode_encode_lpmLookup (p : Params) (a : Ip) : decode p (encode p (.lpmLookup a)) = .ok (.lpmLookup a) := by
  show Except.ok (Instr.lpmLookup _) = _
  rw [ip_of_ipBytes]

theorem decode_encode_ingress (p : Params) (bytes : List Byte) (port : Port) :
    decode p (encode p (.ingress bytes port)) = .ok (.ingress bytes port) := by
  show Except.ok (Instr.ingress bytes _) = _
  rw [port_of_portBytes]

theorem decode_encode_ftInstall (p : Params) (pfx : Ip) (plen : BitVec 8) (port : Port) (mac : Mac) :
    decode p (encode p (.ftInstall pfx plen port mac)) = .ok (.ftInstall pfx plen port mac) := by
  show Except.ok (Instr.ftInstall _ plen _ _) = _
  rw [ip_of_ipBytes, port_of_portBytes, mac_of_macBytes]

theorem decode_encode_lasConfigure (p : Params) (a0 a1 a2 : Option Ip) :
    decode p (encode p (.lasConfigure a0 a1 a2)) = .ok (.lasConfigure a0 a1 a2) := by
  have last : takeOptIp (optIpBytes a2) = some (a2, []) := by
    simpa only [List.append_nil] using takeOptIp_optIpBytes a2 []
  show decodeLasConfigure (optIpBytes a0 ++ optIpBytes a1 ++ optIpBytes a2) = _
  simp only [decodeLasConfigure, List.append_assoc, takeOptIp_optIpBytes, last]

/-! ## The rows that carry an entry index -/

theorem decode_encode_encSr (p : Params) {i : BitVec 4} (h : entryIndexOk i = true) :
    decode p (encode p (.encSr i)) = .ok (.encSr i) := by
  show decodeLayout [0x06#8, 0#4 ++ i] = _
  simp only [decodeLayout, entryIndexOf_nibble h, if_true]

theorem decode_encode_emitSr (p : Params) {i : BitVec 4} (h : entryIndexOk i = true) :
    decode p (encode p (.emitSr i)) = .ok (.emitSr i) := by
  show decodeEmit [0#4 ++ 0b0010#4, 0#4 ++ i] = _
  have row : firstRow vkEmitRows 0b0010#4 = some (.emitSr 0#4, true) := by decide
  simp only [decodeEmit, vkOfByte_nibble, rowOf_of_firstRow row, entryIndexOf_nibble h]

/-! ## The rows of START's transitions, and all operations together -/

/-- A START row's word, from the row its type tag selects. -/
theorem decode_typeTag {p : Params} {t : Half} {r : SelRow}
    (row : (if t = Config.etherArp then .startArp else if t = p.srType then .startSr
      else if t = Config.etherIpv4 then .startIpv4 else .startOther) = r) :
    decode p (pskWord fmtPskSelect (0#4 ++ t)) = .ok r.op :=
  decode_pskSelect (row ▸ firstRow_typeTag p t)

/-- Settles O1: a fixed word is evaluated; a key's word decodes to the row the key matches first, where distinct
EtherTypes keep an earlier row from taking it; operands and indices are read back byte by byte. -/
theorem everyOperationWordDecodesToItsOperation : Obligations.EveryOperationWordDecodesToItsOperation := by
  intro p i hp wellFormed
  have ⟨srNotIpv4, srNotArp, ipv4NotArp⟩ := hp
  obtain ⟨otherNotSr, otherNotArp, otherNotIpv4⟩ := otherTypeTag_ne p
  cases i with
  | pStart | pArp | pSr | pIpv4 | pAccept => exact decode_pskState p (by decide)
  | pStartSelArp => exact decode_typeTag (if_pos rfl)
  | pStartSelSr => exact decode_typeTag (by rw [if_neg srNotArp, if_pos rfl])
  | pStartSelIpv4 => exact decode_typeTag (by rw [if_neg ipv4NotArp, if_neg srNotIpv4.symm, if_pos rfl])
  | pStartSelOther => exact decode_typeTag (by rw [if_neg otherNotArp, if_neg otherNotSr, if_neg otherNotIpv4])
  | pSrOverflow => exact decode_pskSelect (firstRow_srOverflow p)
  | pSrSelBos1 => exact decode_pskSelect (firstRow_pskSr p 0x8000#16)
  | pSrSelBos0 => exact decode_pskSelect (firstRow_pskSr p 0x0000#16)
  | arpReply => exact decode_dsk (firstRow_dskParts hp _ true false false true true false rfl)
  | arpNonlocal => exact decode_dsk (firstRow_dskParts hp _ true false false true false false rfl)
  | arpNoaction => exact decode_dsk (firstRow_dskParts hp _ true false false false false false rfl)
  | srHop =>
    exact decode_dsk (r := .srHop) ((firstRow_dskParts hp p.srType false true false false false false rfl).trans
      (by simp))
  | ipv4FwdHit =>
    exact decode_dsk (r := .ipv4FwdHit) ((firstRow_dskParts hp _ false false true false false true rfl).trans
      (by simp))
  | ipv4FwdMiss =>
    exact decode_dsk (r := .ipv4FwdMiss) ((firstRow_dskParts hp _ false false true false false false rfl).trans
      (by simp))
  | fallbackDrop =>
    exact decode_dsk (r := .fallbackDrop) ((firstRow_dskParts hp 0#16 false false false false false false rfl).trans
      (by simp))
  | lasMember a => exact decode_encode_lasMember p a
  | lpmLookup a => exact decode_encode_lpmLookup p a
  | emitSr i => exact decode_encode_emitSr p wellFormed
  | encSr i => exact decode_encode_encSr p wellFormed
  | ingress bytes port => exact decode_encode_ingress p bytes port
  | ftInstall pfx plen port mac => exact decode_encode_ftInstall p pfx plen port mac
  | lasConfigure a0 a1 a2 => exact decode_encode_lasConfigure p a0 a1 a2
  | decEth | decArp | decSr | decIpv4 | encEth | encArp | encIpv4 => rfl
  | dispatch | srPop | ttlDec | csumCompute => rfl
  | csumUpdate | deparse | emitEth | emitArp | emitIpv4 | emitPayload => rfl
  | egressVerdict | egress => rfl

/-- Settles O2: the words are closed, so the decoder is evaluated on each. -/
theorem writtenOutWordsDecodeToTheirOperations : Obligations.WrittenOutWordsDecodeToTheirOperations := by
  unfold Obligations.WrittenOutWordsDecodeToTheirOperations
  decide

end Sys2Proof.Machine
end

section
/-! PROOF. Which operation a step runs, when a step is refused, and the transitions run by themselves (30_encoding.md
R118, R120; 41_parser.md R207 to R212; 42_decision.md R240; 60_exceptions.md R390, R391). -/

namespace Sys2Proof.Machine

theorem finishStage_eq (g : Stage) (t : State) :
    finishStage g t = if g = .decide then setStage t .csum else if g = .csum then setStage t .deparse else t := by
  cases g <;> rfl

/-- An own step whose word decodes runs the operation, then moves the stage. -/
theorem ownStep_of_decode {s : State} {w : List Byte} {i : Instr} (fetched : fetchOwn s = .word w)
    (word : decode s.params w = .ok i) : ownStep s = onNext (finishStage s.pipe.stage) (exec i s) := by
  simp only [ownStep, fetched, word]

/-- Settles O46: the turn is an own step's, and `finishStage` is the stage move. -/
theorem stepRunsTheOperationItsKeySelects : Obligations.StepRunsTheOperationItsKeySelects := by
  intro s w i hd turn fetched word
  rw [step_own hd turn, ownStep_of_decode fetched word]
  exact congrArg (onNext · _) (funext (finishStage_eq s.pipe.stage))

/-- Settles O47: the own step is the parser's, the serializer's or refused, as the stage says. -/
theorem stageAndParserStateSelectTheOperation : Obligations.StageAndParserStateSelectTheOperation := by
  intro s hd turn
  rw [step_own hd turn]
  have inParser (stage : s.pipe.stage = .parse) := ownStep_parse (s := popTurn s) stage
  simp only [popTurn_pipe] at inParser
  exact ⟨fun stage state => by rw [inParser stage, state],
    fun stage state => by rw [inParser stage, state],
    fun stage state room => (inParser stage).trans (by rw [state]; exact if_neg room),
    fun stage state full => (inParser stage).trans (by rw [state]; exact if_pos full),
    fun stage state => by rw [inParser stage, state],
    fun stage state => by rw [inParser stage, state],
    fun stage => ownStep_deparse stage, fun stage => ownStep_idle stage, fun stage => ownStep_done stage⟩

theorem step_of_not_distinct {s : State} (h : ¬ s.params.distinct) : step s = .refused .equalEtherTypes := if_neg h

/-- Settles O48: either equality contradicts that the EtherTypes are distinct. -/
theorem equalEtherTypesAreRefused : Obligations.EqualEtherTypesAreRefused := by
  intro s equal
  refine step_of_not_distinct fun ⟨srNotIpv4, srNotArp, _⟩ => ?_
  rcases equal with ipv4 | arp
  · exact srNotIpv4 ipv4
  · exact srNotArp arp

/-- Settles O12: each transition is one write of the parser state. -/
theorem selectOperationsWriteOnlyTheParserState : Obligations.SelectOperationsWriteOnlyTheParserState :=
  fun _ => ⟨rfl, rfl, rfl, rfl, rfl, rfl⟩

end Sys2Proof.Machine
end

section
/-! PROOF. The wire bytes of a header, field by field: the bytes of the fields, in a row, spell the header (00_scope.md R18,
R19; 40_codec.md R166 to R169). -/

namespace Sys2Proof.Machine

/-! ## Byte strings that spell a bit string -/

/-- The bytes are those of the bit string, most significant first: `bitsOf` and `bytesOf` between them, without a cast of the
width. -/
def Spells (bs : List Byte) {w : Nat} (v : BitVec w) : Prop := w = 8 * bs.length ∧ valueOf bs = v.toNat

theorem Spells.bitsOf_eq {bs : List Byte} {n : Nat} {v : BitVec (8 * n)} (h : Spells bs v) : bitsOf n bs = v := by
  rw [bitsOf, h.2, BitVec.ofNat_toNat, BitVec.setWidth_eq]

theorem Spells.bytesOf_eq {bs : List Byte} {n : Nat} {v : BitVec (8 * n)} (h : Spells bs v) : bytesOf n v = bs := by
  have length : bs.length = n := by have := h.1; omega
  rw [← h.bitsOf_eq, bytesOf_bitsOf n bs length]

theorem valueOf_append (xs ys : List Byte) : valueOf (xs ++ ys) = valueOf xs * 2 ^ (8 * ys.length) + valueOf ys := by
  induction ys using List.reverseRecOn with
  | nil => simp [valueOf]
  | append_singleton ys b ih =>
    rw [← List.append_assoc, valueOf_snoc, valueOf_snoc, ih, List.length_append, List.length_singleton, Nat.mul_add,
      Nat.pow_add]
    ring

theorem toNat_append_eq {m n : Nat} (a : BitVec m) (b : BitVec n) : (a ++ b).toNat = a.toNat * 2 ^ n + b.toNat := by
  rw [BitVec.toNat_append, ← Nat.shiftLeft_add_eq_or_of_lt b.isLt, Nat.shiftLeft_eq]

theorem spells_byte (b : Byte) : Spells [b] b := ⟨rfl, by simp [valueOf]⟩

theorem Spells.append {xs ys : List Byte} {m n : Nat} {a : BitVec m} {b : BitVec n} (ha : Spells xs a)
    (hb : Spells ys b) : Spells (xs ++ ys) (a ++ b) := by
  obtain ⟨widthA, valueA⟩ := ha
  obtain ⟨widthB, valueB⟩ := hb
  refine ⟨by rw [List.length_append, widthA, widthB, Nat.mul_add], ?_⟩
  rw [valueOf_append, toNat_append_eq, valueA, valueB, ← widthB]

/-- How a concatenation is bracketed does not matter to the bytes. -/
theorem spells_append_assoc {bs : List Byte} {l m n : Nat} {a : BitVec l} {b : BitVec m} {c : BitVec n} :
    Spells bs (a ++ b ++ c) ↔ Spells bs (a ++ (b ++ c)) := by
  simp only [Spells, BitVec.append_assoc, BitVec.toNat_cast, Nat.add_assoc]

theorem spells_two (a b : Byte) : Spells [a, b] (a ++ b) := (spells_byte a).append (spells_byte b)

theorem spells_portBytes (a : Port) : Spells (portBytes a) a := by
  have bytes := spells_two (a.extractLsb' 8 8) (a.extractLsb' 0 8)
  rwa [port_of_portBytes] at bytes

theorem spells_ipBytes (a : Ip) : Spells (ipBytes a) a := by
  have bytes := ((spells_two (a.extractLsb' 24 8) (a.extractLsb' 16 8)).append (spells_byte (a.extractLsb' 8 8))).append
    (spells_byte (a.extractLsb' 0 8))
  rwa [ip_of_ipBytes] at bytes

theorem spells_macBytes (a : Mac) : Spells (macBytes a) a := by
  have bytes := ((((spells_two (a.extractLsb' 40 8) (a.extractLsb' 32 8)).append
    (spells_byte (a.extractLsb' 24 8))).append (spells_byte (a.extractLsb' 16 8))).append
    (spells_byte (a.extractLsb' 8 8))).append (spells_byte (a.extractLsb' 0 8))
  rwa [mac_of_macBytes] at bytes

/-! ## The four headers -/

theorem spells_packEth (e : Eth) : Spells (macBytes e.dst ++ macBytes e.src ++ portBytes e.etype) (packEth e) :=
  ((spells_macBytes e.dst).append (spells_macBytes e.src)).append (spells_portBytes e.etype)

theorem spells_packArp (a : Arp) :
    Spells (portBytes a.htype ++ portBytes a.ptype ++ [a.hlen, a.plen] ++ portBytes a.oper ++ macBytes a.sha
      ++ ipBytes a.spa ++ macBytes a.tha ++ ipBytes a.tpa) (packArp a) := by
  have types := (spells_portBytes a.htype).append (spells_portBytes a.ptype)
  have lengths := (types.append (spells_byte a.hlen)).append (spells_byte a.plen)
  rw [List.append_assoc _ [a.hlen]] at lengths
  have sender := ((lengths.append (spells_portBytes a.oper)).append (spells_macBytes a.sha)).append (spells_ipBytes a.spa)
  exact (sender.append (spells_macBytes a.tha)).append (spells_ipBytes a.tpa)

/-- Flags and fragment offset share two bytes (40_codec.md R169). -/
theorem spells_flags_fragOff (f : BitVec 3) (o : BitVec 13) :
    Spells [f ++ o.extractLsb' 8 5, o.extractLsb' 0 8] (f ++ o) := by
  have split := spells_append_assoc.1 (spells_two (f ++ o.extractLsb' 8 5) (o.extractLsb' 0 8))
  rwa [slices_join o 0 8 5 8 rfl, slice_whole] at split

theorem spells_packIpv4 (i : Ipv4) :
    Spells ([i.version ++ i.ihl, i.tos] ++ portBytes i.totalLen ++ portBytes i.ident
      ++ [i.flags ++ i.fragOff.extractLsb' 8 5, i.fragOff.extractLsb' 0 8, i.ttl, i.protocol] ++ portBytes i.checksum
      ++ ipBytes i.src ++ ipBytes i.dst) (packIpv4 i) := by
  have front := ((spells_two (i.version ++ i.ihl) i.tos).append (spells_portBytes i.totalLen)).append
    (spells_portBytes i.ident)
  have fragment := spells_append_assoc.2 (front.append (spells_flags_fragOff i.flags i.fragOff))
  have life := (fragment.append (spells_byte i.ttl)).append (spells_byte i.protocol)
  rw [List.append_assoc, List.append_assoc] at life
  exact ((life.append (spells_portBytes i.checksum)).append (spells_ipBytes i.src)).append (spells_ipBytes i.dst)

/-- The two bytes of a source-route entry: the flag is the most significant bit, the port the other fifteen
(40_codec.md R163, R168). -/
theorem spells_packSr {b0 b1 : Byte} {e : SrEntry}
    (h : b0.toNat * 256 + b1.toNat = e.bos.toNat * 2 ^ 15 + e.port.toNat) : Spells [b0, b1] (packSr e) := by
  refine ⟨rfl, ?_⟩
  rw [packSr, toNat_append_eq, BitVec.toNat_ofBool, ← h]
  simp [valueOf]

/-! ## Fields and bit strings determine each other -/

theorem packEth_unpackEth (h : BitVec 112) : packEth (unpackEth h) = h := by
  simp only [packEth, unpackEth]
  rw [slices_join h 16 48 48 64 rfl, slices_join h 0 16 _ 16 rfl]
  exact slice_whole h

theorem packArp_unpackArp (h : BitVec 224) : packArp (unpackArp h) = h := by
  simp only [packArp, unpackArp]
  rw [slices_join h 192 16 16 208 rfl, slices_join h 184 8 _ 192 rfl, slices_join h 176 8 _ 184 rfl,
    slices_join h 160 16 _ 176 rfl, slices_join h 112 48 _ 160 rfl, slices_join h 80 32 _ 112 rfl,
    slices_join h 32 48 _ 80 rfl, slices_join h 0 32 _ 32 rfl]
  exact slice_whole h

theorem packIpv4_unpackIpv4 (h : BitVec 160) : packIpv4 (unpackIpv4 h) = h := by
  simp only [packIpv4, unpackIpv4]
  rw [slices_join h 152 4 4 156 rfl, slices_join h 144 8 _ 152 rfl, slices_join h 128 16 _ 144 rfl,
    slices_join h 112 16 _ 128 rfl, slices_join h 109 3 _ 112 rfl, slices_join h 96 13 _ 109 rfl,
    slices_join h 88 8 _ 96 rfl, slices_join h 80 8 _ 88 rfl, slices_join h 64 16 _ 80 rfl,
    slices_join h 32 32 _ 64 rfl, slices_join h 0 32 _ 32 rfl]
  exact slice_whole h

/-- The flag lies above the port in an entry's word (30_encoding.md R113). -/
theorem unpackSr_packSr (e : SrEntry) : unpackSr (packSr e) = e := by
  have port : (packSr e).extractLsb' 0 15 = e.port :=
    (slice_lower (BitVec.ofBool e.bos) e.port 0 15 (Nat.le_refl 15)).trans (slice_whole e.port)
  rw [unpackSr, packSr_bit15, port]

/-- The entry that two bytes hold: `bos = byte0 >> 7` and `port = (byte0 & 0x7F) << 8 | byte1` (40_codec.md R163). -/
def entryOfBytes (b0 b1 : Byte) : SrEntry :=
  { bos := decide (b0.toNat / 128 = 1), port := BitVec.ofNat 15 (b0.toNat % 128 * 256 + b1.toNat) }

theorem spells_entryOfBytes (b0 b1 : Byte) : Spells [b0, b1] (packSr (entryOfBytes b0 b1)) := by
  apply spells_packSr
  have lt0 : b0.toNat < 256 := b0.isLt
  have lt1 : b1.toNat < 256 := b1.isLt
  simp only [entryOfBytes, BitVec.toNat_ofNat]
  by_cases top : b0.toNat / 128 = 1
  · rw [decide_eq_true top, Bool.toNat_true]
    omega
  · rw [decide_eq_false top, Bool.toNat_false]
    omega

theorem unpackSr_bytes (b0 b1 : Byte) : unpackSr (bitsOf 2 [b0, b1]) = entryOfBytes b0 b1 := by
  rw [(spells_entryOfBytes b0 b1).bitsOf_eq, unpackSr_packSr]

/-- The fields of a header register stand side by side in its bit string, so that equal bit strings have equal fields. -/
theorem packEth_injective {e f : Eth} (h : packEth e = packEth f) (valid : e.valid = f.valid) : e = f := by
  have fields := append_eq_iff.1 h
  simp only [append_eq_iff] at fields
  cases e
  cases f
  simp_all

theorem packArp_injective {a b : Arp} (h : packArp a = packArp b) (valid : a.valid = b.valid) : a = b := by
  have fields := append_eq_iff.1 h
  simp only [append_eq_iff] at fields
  cases a
  cases b
  simp_all

theorem packIpv4_injective {i j : Ipv4} (h : packIpv4 i = packIpv4 j) (valid : i.valid = j.valid) : i = j := by
  have fields := append_eq_iff.1 h
  simp only [append_eq_iff] at fields
  cases i
  cases j
  simp_all

/-- Settles O3: bytes and bit strings are inverse to each other, and so are bit strings and fields. -/
theorem headerCodecRoundTrips : Obligations.HeaderCodecRoundTrips := by
  refine ⟨fun bs length => ?_, fun bs length => ?_, fun bs length => ?_, fun bs length => ?_,
    fun e valid => ?_, fun a valid => ?_, fun e => ?_, fun i valid => ?_⟩
  · rw [ethBytes, packEth_unpackEth, bytesOf_bitsOf 14 bs length]
  · rw [arpBytes, packArp_unpackArp, bytesOf_bitsOf 28 bs length]
  · obtain ⟨b0, b1, rfl⟩ := List.length_eq_two.1 length
    rw [unpackSr_bytes, srBytes, (spells_entryOfBytes b0 b1).bytesOf_eq]
  · rw [ipv4Bytes, packIpv4_unpackIpv4, bytesOf_bitsOf 20 bs length]
  · rw [ethBytes, bitsOf_bytesOf 14]
    exact packEth_injective (packEth_unpackEth _) valid.symm
  · rw [arpBytes, bitsOf_bytesOf 28]
    exact packArp_injective (packArp_unpackArp _) valid.symm
  · rw [srBytes, bitsOf_bytesOf 2, unpackSr_packSr]
  · rw [ipv4Bytes, bitsOf_bytesOf 20]
    exact packIpv4_injective (packIpv4_unpackIpv4 _) valid.symm

end Sys2Proof.Machine
end

section
/-! PROOF. The header codec's operations: what DEC_X reads and writes, and what ENC_X and EMIT_X append (40_codec.md R160 to
R169; 46_deparser.md R351 to R354). -/

namespace Sys2Proof.Machine

/-! ## Decoding -/

theorem outcome_decodeHeader_short {s : State} {n : Nat} (k : State → BitVec (8 * n) → Flow)
    (h : s.pipe.inBuf.size - s.pipe.cur < n) :
    (decodeHeader s n k).outcome = .next (afterParseError s .truncatedHeader) := by
  rw [decodeHeader_short k h, outcome_raised]
  rfl

theorem outcome_decodeHeader_long {s : State} {n : Nat} (k : State → BitVec (8 * n) → Flow) (wf : s.pipe.inBuf.wf)
    (pos : 0 < n) (h : n ≤ s.pipe.inBuf.size - s.pipe.cur) :
    (decodeHeader s n k).outcome = (k (setCur s (s.pipe.cur + n)) (bitsOf n (nextBytes s.pipe n))).outcome := by
  rw [decodeHeader_long k wf pos h]

/-- Settles O4: the decode contract of R160 for 14 bytes, with the fields of `unpackEth`. -/
theorem decEthReadsTheNextFourteenBytes : Obligations.DecEthReadsTheNextFourteenBytes :=
  fun _ wf => ⟨outcome_decodeHeader_short _, outcome_decodeHeader_long _ wf (by decide)⟩

/-- Settles O5: the decode contract of R160 for 28 bytes, with the fields of `unpackArp`. -/
theorem decArpReadsTheNextTwentyEightBytes : Obligations.DecArpReadsTheNextTwentyEightBytes :=
  fun _ wf => ⟨outcome_decodeHeader_short _, outcome_decodeHeader_long _ wf (by decide)⟩

/-- Settles O7: the decode contract of R160 for 20 bytes, with the fields of `unpackIpv4`. -/
theorem decIpv4ReadsTheNextTwentyBytes : Obligations.DecIpv4ReadsTheNextTwentyBytes :=
  fun _ wf => ⟨outcome_decodeHeader_short _, outcome_decodeHeader_long _ wf (by decide)⟩

theorem nextBytes_length (p : Pipe) (n : Nat) : (nextBytes p n).length = min n (p.inBuf.size - p.cur) := by
  simp [nextBytes]

/-- Settles O6: the decode contract of R160 for 2 bytes; with a free register the entry they hold is pushed. -/
theorem decSrAppendsTheNextEntry : Obligations.DecSrAppendsTheNextEntry := by
  intro s wf
  refine ⟨outcome_decodeHeader_short _, fun b0 b1 next free => ?_⟩
  have room : 2 ≤ s.pipe.inBuf.size - s.pipe.cur := by
    have length := nextBytes_length s.pipe 2
    rw [next, List.length_cons, List.length_singleton] at length
    omega
  show (doDecSr s).outcome = _
  rw [doDecSr, outcome_decodeHeader_long _ wf (by decide) room, next, unpackSr_bytes]
  exact congrArg Flow.outcome (if_pos free)

/-! ## Encoding -/

theorem exec_encEth_of_valid {s : State} (h : s.pipe.eth.valid = true) :
    exec .encEth s = .next (afterEmit s (ethBytes s.pipe.eth)) := by
  show (doEncEth s).outcome = _
  rw [doEncEth, readEth_of_valid h]
  rfl

theorem exec_encArp_of_valid {s : State} (h : s.pipe.arp.valid = true) :
    exec .encArp s = .next (afterEmit s (arpBytes s.pipe.arp)) := by
  show (doEncArp s).outcome = _
  rw [doEncArp, readArp_of_valid h]
  rfl

theorem exec_encIpv4_of_valid {s : State} (h : s.pipe.ipv4.valid = true) :
    exec .encIpv4 s = .next (afterEmit s (ipv4Bytes s.pipe.ipv4)) := by
  show (doEncIpv4 s).outcome = _
  rw [doEncIpv4, readIpv4_of_valid h]
  rfl

theorem exec_encSr_of_entry {s : State} {i : BitVec 4} {e : SrEntry} (within : i.toNat < s.pipe.sr.len)
    (entry : s.pipe.sr.e[i.toNat]? = some e) : exec (.encSr i) s = .next (afterEmit s (srBytes e)) := by
  show (doEncSr i.toNat s).outcome = _
  rw [doEncSr, readEntry, if_pos within, entry]
  rfl

/-- Settles O8: an emission is its encoder, and the bytes spelled field by field are the header's. -/
theorem encodersAndEmissionsAppendTheWireBytes : Obligations.EncodersAndEmissionsAppendTheWireBytes := by
  intro s
  refine ⟨fun valid => ?_, fun valid => ?_, fun valid => ?_⟩
  · have encoded := exec_encEth_of_valid valid
    rw [ethBytes, (spells_packEth s.pipe.eth).bytesOf_eq (n := 14)] at encoded
    exact ⟨encoded, encoded⟩
  · have encoded := exec_encArp_of_valid valid
    rw [arpBytes, (spells_packArp s.pipe.arp).bytesOf_eq (n := 28)] at encoded
    exact ⟨encoded, encoded⟩
  · have encoded := exec_encIpv4_of_valid valid
    rw [ipv4Bytes, (spells_packIpv4 s.pipe.ipv4).bytesOf_eq (n := 20)] at encoded
    exact ⟨encoded, encoded⟩

/-- Settles O9: the emission is the encoder, and the two bytes spell the entry. -/
theorem encSrAndEmitSrAppendTheEntry : Obligations.EncSrAndEmitSrAppendTheEntry := by
  intro s i e within entry
  have port : e.port.toNat < 2 ^ 15 := e.port.isLt
  have bos : e.bos.toNat ≤ 1 := e.bos.toNat_le
  have bytes : Spells [BitVec.ofNat 8 (e.bos.toNat * 128 + e.port.toNat / 256), BitVec.ofNat 8 (e.port.toNat % 256)]
      (packSr e) := by
    apply spells_packSr
    simp only [BitVec.toNat_ofNat]
    omega
  have encoded := exec_encSr_of_entry within entry
  rw [srBytes, bytes.bytesOf_eq (n := 2)] at encoded
  exact ⟨encoded, encoded⟩

end Sys2Proof.Machine
end

section
/-! PROOF. Each parser state's operation in every state: the header decoded, the branch taken, and nothing else written
(41_parser.md R201 to R213). -/

namespace Sys2Proof.Machine

/-- A parser state's operation on a frame too short for its header takes the parse-error entry: what comes after the decode
does not run (40_codec.md R160). -/
theorem outcome_decodeThen_short {s : State} {n : Nat} (k : State → BitVec (8 * n) → Flow) (k' : State → Flow)
    (short : s.pipe.inBuf.size - s.pipe.cur < n) :
    ((decodeHeader s n k).andThen k').outcome = .next (afterParseError s .truncatedHeader) := by
  rw [decodeHeader_short k short, andThen_raised, outcome_raised]
  rfl

theorem decodeThen_long {s : State} {n : Nat} (k : State → BitVec (8 * n) → Flow) (k' : State → Flow)
    (wf : s.pipe.inBuf.wf) (pos : 0 < n) (room : n ≤ s.pipe.inBuf.size - s.pipe.cur) :
    (decodeHeader s n k).andThen k'
      = (k (setCur s (s.pipe.cur + n)) (bitsOf n (nextBytes s.pipe n))).andThen k' := by
  rw [decodeHeader_long k wf pos room]

/-- Settles O11: DEC_ETH's contract, then `selectNext_start` for the branch on the type tag just decoded. -/
theorem pStartDecodesAndBranchesOnTheTypeTag : Obligations.PStartDecodesAndBranchesOnTheTypeTag := by
  intro s wf
  refine ⟨outcome_decodeThen_short _ _, fun room => ?_⟩
  show (doPStart s).outcome = _
  rw [doPStart, doDecEth, decodeThen_long _ _ wf (by decide) room, andThen_go, readEth_of_valid rfl, withVal_ok,
    selectNext_start]
  rfl

theorem exec_pSrOverflow (s : State) : exec .pSrOverflow s = .next (afterParseError s .sourceRouteOverflow) := rfl

theorem srFull_of_full {p : Pipe} (h : p.sr.len = 10) : srFull p = true := decide_eq_true h

theorem srFull_of_free {p : Pipe} (h : p.sr.len < 10) : srFull p = false := decide_eq_false (Nat.ne_of_lt h)

/-- P_SR with a free register decodes an entry and branches on it. -/
theorem doPSr_of_free {s : State} (free : s.pipe.sr.len < 10) :
    doPSr s = (doDecSr s).andThen fun t =>
      withVal (readEntry t (t.pipe.sr.len - 1)) fun e => selectNext (pskKey false .parseSr (packSr e)) t := by
  rw [doPSr, srFull_of_free free]
  exact if_neg Bool.false_ne_true

/-- DEC_SR with two bytes left and a free register pushes the entry they hold (40_codec.md R163). -/
theorem doDecSr_of_room {s : State} (wf : s.pipe.inBuf.wf) (free : s.pipe.sr.len < 10)
    (room : 2 ≤ s.pipe.inBuf.size - s.pipe.cur) :
    doDecSr s = .go (setSr (setCur s (s.pipe.cur + 2)) (s.pipe.sr.push (unpackSr (bitsOf 2 (nextBytes s.pipe 2))))) := by
  rw [doDecSr, decodeHeader_long _ wf (by decide) room]
  exact if_pos free

/-- Settles O13: the capacity bit is tested first; behind it DEC_SR's contract, and `selectNext_sr` for the branch on the
entry just pushed. -/
theorem pSrChecksCapacityThenAppendsAndBranches : Obligations.PSrChecksCapacityThenAppendsAndBranches := by
  intro s wf
  refine ⟨exec_pSrOverflow s, fun full => ?_, fun free short => ?_, fun free room => ?_⟩
  · exact congrArg Flow.outcome (if_pos (srFull_of_full full))
  · show (doPSr s).outcome = _
    rw [doPSr_of_free free]
    exact outcome_decodeThen_short _ _ short
  · show (doPSr s).outcome = _
    rw [doPSr_of_free free, doDecSr_of_room wf free room, andThen_go, readEntry_push rfl free, withVal_ok,
      selectNext_sr, packSr_bit15]
    rfl

/-- Settles O14: the decode contract of R160 for 28 and for 20 bytes, then the one write of the parser state. -/
theorem pArpAndPIpv4DecodeAndAccept : Obligations.PArpAndPIpv4DecodeAndAccept := by
  intro s wf
  refine ⟨outcome_decodeThen_short _ _, fun room => ?_, outcome_decodeThen_short _ _, fun room => ?_⟩
  · show (doPArp s).outcome = _
    rw [doPArp, doDecArp, decodeThen_long _ _ wf (by decide) room]
    rfl
  · show (doPIpv4 s).outcome = _
    rw [doPIpv4, doDecIpv4, decodeThen_long _ _ wf (by decide) room]
    rfl

/-- Settles O15: P_ACCEPT reads nothing but the cursor and cannot raise. -/
theorem pAcceptRecordsThePayloadOffset : Obligations.PAcceptRecordsThePayloadOffset := fun _ => rfl

end Sys2Proof.Machine
end

section
/-! PROOF. A frame's way through the parser from a state with the invariant: what it has when it is accepted, and how many
steps it takes (41_parser.md R213 to R215). -/

namespace Sys2Proof.Machine

/-- The longest accepted stack is a source route of ten entries before an IPv4 header: 14 + 20 + 20 bytes. -/
theorem cur_le_of_acceptedStack {c : Params} {p : Pipe} (h : acceptedStack c p) : p.cur ≤ 54 := by
  obtain ⟨-, ⟨-, -, -, -, cur⟩ | ⟨-, -, ⟨-, entries, -⟩, -, cur⟩ | ⟨-, -, -, -, cur⟩ | ⟨-, -, -, -, cur⟩⟩ := h
  · omega
  · have bound : p.sr.len ≤ 10 := entries
    omega
  · omega
  · omega

/-- Settles O17: the step keeps the invariant, and in DECIDE the invariant holds the accepted stack. -/
theorem acceptedFramesHaveOneOfFourHeaderStacks : Obligations.AcceptedFramesHaveOneOfFourHeaderStacks := by
  intro s t inv _ _ h stage
  obtain ⟨-, -, ⟨-, -, decide, -⟩, -⟩ := everyStepKeepsTheInvariant s t inv h
  obtain ⟨-, -, off, -, accepted⟩ := decide stage
  exact ⟨accepted, off, cur_le_of_acceptedStack accepted⟩

/-- How many more steps in PARSE can come after the next one: at most ten entries, then one IPv4 header and the acceptance. -/
def Pipe.parserSteps (p : Pipe) : Nat :=
  match p.pstate with
  | .start => 12
  | .parseArp => 1
  | .parseSr => 11 - p.sr.len
  | .parseIpv4 => 1
  | .accept => 0
  | .reject => 0

theorem parserSteps_lt_thirteen (p : Pipe) : p.parserSteps < 13 := by
  rw [Pipe.parserSteps]
  split <;> omega

/-- Every parser step leaves PARSE or brings its end nearer. -/
theorem ParserMove.leaves_or_nearer {c : Params} {p q : Pipe} (h : ParserMove c p q) :
    (q.stage = .decide ∨ q.stage = .done) ∨ (q.stage = p.stage ∧ q.parserSteps < p.parserSteps) := by
  cases h with
  | error => exact .inl (.inr rfl)
  | accept => exact .inl (.inl rfl)
  | eth e state =>
    refine .inr ⟨rfl, ?_⟩
    simp only [Pipe.parserSteps, state, stateAfterEth]
    split_ifs <;> dsimp only <;> omega
  | arp a state | ipv4 i state =>
    refine .inr ⟨rfl, ?_⟩
    simp only [Pipe.parserSteps, state]
    omega
  | entry e state room free =>
    refine .inr ⟨rfl, ?_⟩
    have free' : p.sr.len < 10 := free
    have pushed : (p.sr.push e).len = p.sr.len + 1 := rfl
    cases bos : e.bos <;> simp [Pipe.parserSteps, state, pushed] <;> omega

/-- An operation that answers a next state on a short frame and on a long one always answers one. -/
theorem exists_next_of_room {o : Host.Outcome State Fault Refusal} {left n : Nat} {t u : State}
    (short : left < n → o = .next t) (long : n ≤ left → o = .next u) : ∃ v, o = .next v := by
  rcases Nat.lt_or_ge left n with h | h
  · exact ⟨t, short h⟩
  · exact ⟨u, long h⟩

/-- With the invariant no parser step stops: the buffer is in canonical form, the stack holds at most ten entries, and the
parser state is not REJECT. -/
theorem exists_next_of_parse {c : Params} {s : State} (inv : pipeInv c s.pipe) (stage : s.pipe.stage = .parse) :
    ∃ t, ownStep s = .next t := by
  obtain ⟨⟨wf, -⟩, parse, -⟩ := inv
  obtain ⟨-, -, -, -, inSr, -, -, notReject⟩ := parse stage
  obtain ⟨arpShort, arpLong, ipv4Short, ipv4Long⟩ := pArpAndPIpv4DecodeAndAccept s wf
  rw [ownStep_parse stage]
  cases state : s.pipe.pstate with
  | start =>
    obtain ⟨short, long⟩ := pStartDecodesAndBranchesOnTheTypeTag s wf
    exact exists_next_of_room short long
  | parseArp => exact exists_next_of_room arpShort arpLong
  | parseSr =>
    obtain ⟨-, -, -, -, entries, -⟩ := inSr state
    obtain ⟨overflow, -, short, long⟩ := pSrChecksCapacityThenAppendsAndBranches s wf
    dsimp only
    split
    case isTrue => exact ⟨_, overflow⟩
    case isFalse notFull =>
      have free : s.pipe.sr.len < 10 := Nat.lt_of_le_of_ne entries notFull
      exact exists_next_of_room (short free) (long free)
  | parseIpv4 => exact exists_next_of_room ipv4Short ipv4Long
  | accept => exact ⟨_, pAcceptRecordsThePayloadOffset s⟩
  | reject => exact absurd state notReject

/-- One own step of an undisturbed pipeline in PARSE: it answers, and leaves PARSE or brings its end nearer. -/
theorem step_of_parse {s : State} (inv : machineInv s) (alone : s.agenda = []) (stage : s.pipe.stage = .parse) :
    ∃ t, step s = .next t ∧ machineInv t ∧ t.agenda = []
      ∧ ((t.pipe.stage = .decide ∨ t.pipe.stage = .done)
        ∨ (t.pipe.stage = .parse ∧ t.pipe.parserSteps < s.pipe.parserSteps)) := by
  have ⟨distinct, _, active, _⟩ := inv
  obtain ⟨t, own⟩ := exists_next_of_parse active stage
  obtain ⟨q, move, rfl⟩ := ownStep_parse_moves stage own
  have next : step s = .next (s.setPipe q) := by
    rw [step_own distinct (turnOf_of_nil alone), popTurn_of_nil alone, own]
  refine ⟨_, next, everyStepKeepsTheInvariant _ _ inv next, alone, ?_⟩
  exact move.leaves_or_nearer.imp_right (.imp_left (·.trans stage))

theorem run_succ_of_step {M : Host.Core} {s t : M.State} (h : M.step s = .next t) (k : Nat) :
    M.run (k + 1) s = M.run k t := by
  rw [Host.Core.run, h]

theorem runOwn_succ {s t : State} (h : step s = .next t) (k : Nat) : runOwn (k + 1) s = runOwn k t :=
  run_succ_of_step (M := Sys2Proof.core) h k

theorem leavesParser_of_parserSteps_lt (n : Nat) {s : State} (inv : machineInv s) (alone : s.agenda = [])
    (stage : s.pipe.stage = .parse) (near : s.pipe.parserSteps < n) :
    ∃ k t, k ≤ n ∧ runOwn k s = .next t ∧ (t.pipe.stage = .decide ∨ t.pipe.stage = .done) := by
  induction n generalizing s with
  | zero => exact absurd near (Nat.not_lt_zero _)
  | succ n ih =>
    obtain ⟨t, next, inv', alone', left | ⟨stage', nearer⟩⟩ := step_of_parse inv alone stage
    · exact ⟨1, t, Nat.le_add_left 1 n, runOwn_succ next 0, left⟩
    · obtain ⟨k, u, bound, run, left⟩ := ih inv' alone' stage' (by omega)
      exact ⟨k + 1, u, Nat.succ_le_succ bound, (runOwn_succ next k).trans run, left⟩

/-- Settles O16: by induction on a bound of the parser steps left, which every step in PARSE lowers. -/
theorem everyFrameLeavesTheParserWithinThirteenSteps : Obligations.EveryFrameLeavesTheParserWithinThirteenSteps :=
  fun s inv alone stage => leavesParser_of_parserSteps_lt 13 inv alone stage (parserSteps_lt_thirteen s.pipe)

end Sys2Proof.Machine
end

section
/-! PROOF. The parser reads no configuration: its operations commute with replacing it (41_parser.md R217). -/

namespace Sys2Proof.Machine

/-- The state with another published configuration. -/
def State.withCfg (s : State) (c : Snapshot) : State := { s with cfg := c }

@[simp] theorem State.withCfg_pipe (s : State) (c : Snapshot) : (s.withCfg c).pipe = s.pipe := rfl
@[simp] theorem State.withCfg_params (s : State) (c : Snapshot) : (s.withCfg c).params = s.params := rfl

/-- The same end of a flow, under another configuration. -/
def Flow.withCfg (x : Flow) (c : Snapshot) : Flow :=
  match x with
  | .go s => .go (s.withCfg c)
  | .raised s => .raised (s.withCfg c)
  | .stop f => .stop f

theorem Flow.outcome_withCfg (x : Flow) (c : Snapshot) :
    (x.withCfg c).outcome = onNext (·.withCfg c) x.outcome := by
  cases x <;> rfl

/-- The operation does the same under every configuration. -/
def IgnoresCfg (k : State → Flow) : Prop := ∀ s c, k (s.withCfg c) = (k s).withCfg c

theorem ignoresCfg_andThen {x : State → Flow} {k : State → State → Flow} (hx : IgnoresCfg x)
    (hk : ∀ s t c, k (s.withCfg c) (t.withCfg c) = (k s t).withCfg c) : IgnoresCfg fun s => (x s).andThen (k s) := by
  intro s c
  show (x (s.withCfg c)).andThen _ = ((x s).andThen _).withCfg c
  rw [hx]
  cases x s with
  | go t => exact hk s t c
  | raised _ | stop _ => rfl

theorem ignoresCfg_withVal {α : Type} {x : State → Except Fault α} {k : State → α → Flow}
    (hx : ∀ s c, x (s.withCfg c) = x s) (hk : ∀ a, IgnoresCfg fun s => k s a) :
    IgnoresCfg fun s => withVal (x s) (k s) := by
  intro s c
  show withVal (x (s.withCfg c)) _ = (withVal (x s) _).withCfg c
  rw [hx]
  cases x s with
  | ok a => exact hk a s c
  | error _ => rfl

theorem ignoresCfg_ite {b : State → Prop} [DecidablePred b] {x y : State → Flow}
    (hb : ∀ s c, b (s.withCfg c) ↔ b s) (hx : IgnoresCfg x) (hy : IgnoresCfg y) :
    IgnoresCfg fun s => if b s then x s else y s := by
  intro s c
  by_cases yes : b s
  · simpa only [if_pos yes, if_pos ((hb s c).2 yes)] using hx s c
  · simpa only [if_neg yes, if_neg (mt (hb s c).1 yes)] using hy s c

theorem ignoresCfg_decodeHeader {n : Nat} {k : State → BitVec (8 * n) → Flow} (hk : ∀ w, IgnoresCfg fun s => k s w) :
    IgnoresCfg fun s => decodeHeader s n k :=
  ignoresCfg_ite (fun _ _ => Iff.rfl) (fun _ _ => rfl)
    (ignoresCfg_withVal (fun _ _ => rfl) fun w s => hk w (setCur s (s.pipe.cur + n)))

theorem ignoresCfg_doDecEth : IgnoresCfg doDecEth := ignoresCfg_decodeHeader fun _ _ _ => rfl
theorem ignoresCfg_doDecArp : IgnoresCfg doDecArp := ignoresCfg_decodeHeader fun _ _ _ => rfl
theorem ignoresCfg_doDecIpv4 : IgnoresCfg doDecIpv4 := ignoresCfg_decodeHeader fun _ _ _ => rfl

theorem ignoresCfg_doDecSr : IgnoresCfg doDecSr :=
  ignoresCfg_decodeHeader fun _ => ignoresCfg_ite (fun _ _ => Iff.rfl) (fun _ _ => rfl) fun _ _ => rfl

theorem ignoresCfg_selectNext (key : BitVec 20) : IgnoresCfg (selectNext key) := by
  intro s c
  rw [selectNext, selectNext, State.withCfg_params]
  cases firstRow (pskSelectRows s.params) key with
  | none => rfl
  | some r => cases r <;> rfl

/-- The branch at the end of P_START and P_SR, on a key formed from a value that was read (30_encoding.md R120). -/
theorem ignoresCfg_branch {α : Type} {x : State → Except Fault α} (hx : ∀ s c, x (s.withCfg c) = x s)
    (key : α → BitVec 20) : IgnoresCfg fun s => withVal (x s) fun a => selectNext (key a) s :=
  ignoresCfg_withVal hx fun a => ignoresCfg_selectNext (key a)

theorem ignoresCfg_doPSrOverflow : IgnoresCfg doPSrOverflow := fun _ _ => rfl

theorem ignoresCfg_doPAccept : IgnoresCfg doPAccept := fun _ _ => rfl

theorem ignoresCfg_doPArp : IgnoresCfg doPArp := ignoresCfg_andThen ignoresCfg_doDecArp fun _ _ _ => rfl

theorem ignoresCfg_doPIpv4 : IgnoresCfg doPIpv4 := ignoresCfg_andThen ignoresCfg_doDecIpv4 fun _ _ _ => rfl

theorem ignoresCfg_doPStart : IgnoresCfg doPStart :=
  ignoresCfg_andThen ignoresCfg_doDecEth fun s =>
    ignoresCfg_branch (x := readEth) (fun _ _ => rfl) fun eth => pskKey (srFull s.pipe) .start eth.etype

theorem ignoresCfg_doPSr : IgnoresCfg doPSr :=
  ignoresCfg_ite (fun _ _ => Iff.rfl) ignoresCfg_doPSrOverflow
    (ignoresCfg_andThen ignoresCfg_doDecSr fun s =>
      ignoresCfg_branch (x := fun t => readEntry t (t.pipe.sr.len - 1)) (fun _ _ => rfl) fun e =>
        pskKey (srFull s.pipe) .parseSr (packSr e))

/-- An operation whose flow ignores the configuration has the same outcome under another. -/
theorem IgnoresCfg.outcome {k : State → Flow} (h : IgnoresCfg k) (s : State) (c : Snapshot) :
    (k (s.withCfg c)).outcome = onNext (·.withCfg c) (k s).outcome := by
  rw [h s c, Flow.outcome_withCfg]

theorem ownStep_parse_withCfg {s : State} (stage : s.pipe.stage = .parse) (c : Snapshot) :
    ownStep (s.withCfg c) = onNext (·.withCfg c) (ownStep s) := by
  rw [ownStep_parse stage, ownStep_parse (s := s.withCfg c) stage, State.withCfg_pipe]
  cases s.pipe.pstate with
  | start => exact ignoresCfg_doPStart.outcome s c
  | parseArp => exact ignoresCfg_doPArp.outcome s c
  | parseSr =>
    dsimp only
    split
    case isTrue => exact ignoresCfg_doPSrOverflow.outcome s c
    case isFalse => exact ignoresCfg_doPSr.outcome s c
  | parseIpv4 => exact ignoresCfg_doPIpv4.outcome s c
  | accept => exact ignoresCfg_doPAccept.outcome s c
  | reject => rfl

/-- Settles O18: equal EtherTypes refuse both steps; otherwise both are the parser's own step. -/
theorem parserStepsDoNotDependOnTheConfiguration : Obligations.ParserStepsDoNotDependOnTheConfiguration := by
  intro s c stage turn
  show step (s.withCfg c) = onNext (·.withCfg c) (step s)
  by_cases distinct : s.params.distinct
  · rw [step_own (s := s.withCfg c) distinct turn, step_own distinct turn]
    exact ownStep_parse_withCfg (s := popTurn s) stage c
  · rw [step_of_not_distinct (s := s.withCfg c) distinct, step_of_not_distinct distinct, onNext_refused]

end Sys2Proof.Machine
end

section
/-! PROOF. The operations of the decision stage: what each of them writes, which of them DISPATCH runs, and that in the decision
stage it completes (42_decision.md R240 to R251). -/

namespace Sys2Proof.Machine

/-! ## The operations -/

theorem lasContains_iff (las : Vector LasEntry 3) (a : Ip) :
    lasContains las a = true ↔ ∃ j : Fin 3, las[j].valid = true ∧ las[j].addr = a := by
  simp only [lasContains, List.any_eq_true, Vector.mem_toList_iff, Vector.mem_iff_getElem, Bool.and_eq_true,
    decide_eq_true_eq]
  constructor
  · rintro ⟨_, ⟨j, within, rfl⟩, holds⟩
    exact ⟨⟨j, within⟩, holds⟩
  · rintro ⟨j, holds⟩
    exact ⟨_, ⟨j, j.isLt, rfl⟩, holds⟩

/-- Settles O23: the answer is `lasMember`, which is `lasContains_iff`'s membership in the frame's snapshot. -/
theorem lasMemberTestsTheValidEntries : Obligations.LasMemberTestsTheValidEntries :=
  fun s a => ⟨lasMember s a, rfl, lasContains_iff s.snapshot.las a⟩

theorem readIngressPort_of_set {s : State} (h : s.pipe.ingressSet = true) :
    readIngressPort s = .ok s.pipe.ingressPort := if_pos h

/-- Settles O20: all three reads come before the first write (R247). -/
theorem arpReplySwapsTheAddressPairs : Obligations.ArpReplySwapsTheAddressPairs := by
  intro s eth arp ingress
  rw [execArpReply_of_valid_eth eth, readArp_of_valid arp, withVal_ok, readIngressPort_of_set ingress, withVal_ok]
  rfl

/-- Settles O21: one write of the egress target. -/
theorem arpNonlocalTargetsTheSentinel : Obligations.ArpNonlocalTargetsTheSentinel := fun _ => rfl

/-- Settles O22: each of the three is the decision-drop entry and nothing before it. -/
theorem dropOperationsRecordTheirCauseOnly : Obligations.DropOperationsRecordTheirCauseOnly :=
  fun _ => ⟨rfl, rfl, rfl⟩

theorem ofNat_pred_eq_sub_one (t : Byte) : BitVec.ofNat 8 ((t.toNat + 255) % 256) = t - 1#8 := by
  bv_omega

/-- Settles O24: `doTtlDec_of_valid` in its two cases. -/
theorem ttlDecDecrementsOrDrops : Obligations.TtlDecDecrementsOrDrops := by
  intro s valid
  refine ⟨fun drops expired => ?_, fun kept => ?_⟩
  · show (doTtlDec s).outcome = _
    rw [doTtlDec_of_valid valid, if_pos (by rw [drops, decide_eq_true expired]; rfl)]
    rfl
  · have notExpired : ¬ (s.params.ttlZeroDrop && decide (s.pipe.ipv4.ttl.toNat ≤ 1)) = true := by
      rw [Bool.and_eq_true, decide_eq_true_eq]
      rintro ⟨drops, expired⟩
      rcases kept with keeps | alive
      · exact Bool.false_ne_true (keeps.symm.trans drops)
      · exact Nat.not_lt.2 expired alive
    show (doTtlDec s).outcome = _
    rw [doTtlDec_of_valid valid, if_neg notExpired, ofNat_pred_eq_sub_one]
    rfl

/-! ## DISPATCH -/

/-- The row whose condition holds, the rows tried in the order of 42_decision.md R241. -/
def State.decisionRow (s : State) : DskRow :=
  if s.pipe.eth.etype = Config.etherArp ∧ s.pipe.arp.valid = true then
    if s.pipe.arp.oper = Config.operRequest then
      if lasContains s.snapshot.las s.pipe.arp.tpa = true then .arpReply else .arpNonlocal
    else .arpNoaction
  else if s.pipe.eth.etype = s.params.srType ∧ 0 < s.pipe.sr.len then .srHop
  else if s.pipe.eth.etype = Config.etherIpv4 ∧ s.pipe.ipv4.valid = true then
    if (lookupRoute s.snapshot.ft s.pipe.ipv4.dst).isSome = true then .ipv4FwdHit else .ipv4FwdMiss
  else .fallbackDrop

/-- The key of a state with a valid Ethernet header selects that row: the bits that R121 leaves 0 are bits of rows that are
not tried. -/
theorem formDsk_selects_decisionRow {s : State} (distinct : s.params.distinct) (valid : s.pipe.eth.valid = true) :
    ∃ k, formDsk s = .ok k ∧ firstRow (dskRows s.params) k = some s.decisionRow := by
  rw [formDsk, readEth_of_valid valid]
  refine ⟨_, rfl, ?_⟩
  rw [firstRow_dsk s.params distinct, State.decisionRow]
  by_cases arp : s.pipe.eth.etype = Config.etherArp ∧ s.pipe.arp.valid = true
  · by_cases request : s.pipe.arp.oper = Config.operRequest <;> simp [arp, request]
  · rw [if_neg arp, if_neg arp]
    by_cases ipv4 : s.pipe.eth.etype = Config.etherIpv4 ∧ s.pipe.ipv4.valid = true <;> simp [ipv4]

theorem exec_dskRow (r : DskRow) (s : State) : exec r.op s = (runDskRow r s).outcome := by
  cases r <;> rfl

theorem exec_dispatch_of_valid {s : State} (distinct : s.params.distinct) (valid : s.pipe.eth.valid = true) :
    exec .dispatch s = exec s.decisionRow.op s := by
  obtain ⟨k, key, row⟩ := formDsk_selects_decisionRow distinct valid
  show (doDispatch s).outcome = _
  rw [doDispatch, key, withVal_ok, row, exec_dskRow]

/-- Settles O25: both sides run the row that the key selects. -/
theorem decisionStageRunsDispatchOnceThenMovesToCsum : Obligations.DecisionStageRunsDispatchOnceThenMovesToCsum := by
  intro s distinct stage valid turn
  obtain ⟨k, key, row⟩ := formDsk_selects_decisionRow (s := popTurn s) distinct valid
  rw [step_own distinct turn, ownStep_decide (s := popTurn s) stage, key,
    exec_dispatch_of_valid (s := popTurn s) distinct valid, exec_dskRow]
  dsimp only
  rw [row]
  rfl

theorem exists_next_ttlDec {s : State} (valid : s.pipe.ipv4.valid = true) : ∃ t, (doTtlDec s).outcome = .next t := by
  rw [doTtlDec_of_valid valid]
  split
  case isTrue => exact ⟨_, rfl⟩
  case isFalse => exact ⟨_, rfl⟩

theorem exists_next_srHop {s : State} (nonempty : 0 < s.pipe.sr.len) (le : s.pipe.sr.len ≤ 10) :
    ∃ t, exec .srHop s = .next t := by
  show ∃ t, (doSrHop s).outcome = .next t
  rw [doSrHop, readEntry_of_lt nonempty (by decide), withVal_ok, doSrPop_of_le nonempty le, andThen_go]
  dsimp only
  split
  case isTrue valid => exact exists_next_ttlDec valid
  case isFalse => exact ⟨_, rfl⟩

theorem exists_next_ipv4FwdHit {s : State} {r : Route} (valid : s.pipe.ipv4.valid = true)
    (hit : lookupRoute s.snapshot.ft s.pipe.ipv4.dst = some r) : ∃ t, exec .ipv4FwdHit s = .next t := by
  show ∃ t, (doIpv4FwdHit s).outcome = .next t
  rw [doIpv4FwdHit, readIpv4_of_valid valid, withVal_ok, lpmLookup, hit]
  exact exists_next_ttlDec valid

theorem srLen_le_of_acceptedStack {c : Params} {p : Pipe} (h : acceptedStack c p) : p.sr.len ≤ 10 := by
  obtain ⟨-, ⟨-, -, len, -⟩ | ⟨-, -, ⟨-, len, -⟩, -⟩ | ⟨-, -, len, -⟩ | ⟨-, -, len, -⟩⟩ := h
  case inr.inl => exact len
  all_goals exact len ▸ Nat.zero_le 10

/-- The row whose condition holds reads only what holds a value: its condition, the accepted stack and the ingress port of a
frame that has come in give each read. -/
theorem exists_next_dispatch {s : State} (inv : machineInv s) (stage : s.pipe.stage = .decide) :
    ∃ t, exec .dispatch s = .next t := by
  obtain ⟨distinct, -, ⟨-, -, decide, -⟩, -⟩ := inv
  obtain ⟨⟨-, -, -, -, ingress, -⟩, -, -, -, accepted⟩ := decide stage
  have ⟨valid, _⟩ := accepted
  rw [exec_dispatch_of_valid distinct valid, State.decisionRow]
  split_ifs with arp request member sr ipv4 hit
  · exact ⟨_, arpReplySwapsTheAddressPairs s valid arp.2 ingress⟩
  · exact ⟨_, arpNonlocalTargetsTheSentinel s⟩
  · exact ⟨_, rfl⟩
  · exact exists_next_srHop sr.2 (srLen_le_of_acceptedStack accepted)
  · obtain ⟨r, route⟩ := Option.isSome_iff_exists.1 hit
    exact exists_next_ipv4FwdHit ipv4.2 route
  · exact ⟨_, rfl⟩
  · exact ⟨_, rfl⟩

/-- Settles O19: DISPATCH runs the operation of `State.decisionRow`, and `lasContains_iff` says what its membership bit is. -/
theorem dispatchRunsTheFirstPathWhoseConditionHolds : Obligations.DispatchRunsTheFirstPathWhoseConditionHolds := by
  intro s distinct valid
  refine ⟨exists_next_dispatch, ?_⟩
  rw [exec_dispatch_of_valid distinct valid, State.decisionRow]
  simp only [← lasContains_iff, apply_ite DskRow.op, apply_ite (exec · s)]
  rfl

end Sys2Proof.Machine
end

section
/-! PROOF. DEPARSE of a frame that is not dropped (46_deparser.md R350 to R356). -/

namespace Sys2Proof.Machine

/-- The bytes of a header when it is valid, and none when it is not. -/
def Pipe.ethPart (p : Pipe) : List Byte := if p.eth.valid then ethBytes p.eth else []
@[inherit_doc Pipe.ethPart] def Pipe.arpPart (p : Pipe) : List Byte := if p.arp.valid then arpBytes p.arp else []
@[inherit_doc Pipe.ethPart] def Pipe.ipv4Part (p : Pipe) : List Byte := if p.ipv4.valid then ipv4Bytes p.ipv4 else []

/-- The entries of the stack in ascending order. -/
def Pipe.srPart (p : Pipe) : List Byte := (p.sr.e.toList.take p.sr.len).flatMap srBytes

/-- The bytes of the frame from the payload offset on. -/
def Pipe.payloadPart (p : Pipe) : List Byte := (contents p.inBuf).drop p.payloadOff

/-- The bytes of a frame that is not dropped, in the canonical order of 46_deparser.md R350. -/
def Pipe.frameBytes (p : Pipe) : List Byte := p.ethPart ++ p.arpPart ++ p.srPart ++ p.ipv4Part ++ p.payloadPart

/-! An emission writes `OUT` only, so the next one finds its part of the frame as DEPARSE found it. -/

@[simp] theorem arpPart_emit (s : State) (bs : List Byte) : (emit s bs).pipe.arpPart = s.pipe.arpPart := rfl
@[simp] theorem srPart_emit (s : State) (bs : List Byte) : (emit s bs).pipe.srPart = s.pipe.srPart := rfl
@[simp] theorem ipv4Part_emit (s : State) (bs : List Byte) : (emit s bs).pipe.ipv4Part = s.pipe.ipv4Part := rfl
@[simp] theorem payloadPart_emit (s : State) (bs : List Byte) : (emit s bs).pipe.payloadPart = s.pipe.payloadPart := rfl

theorem emitEth_if_valid (s : State) :
    (if s.pipe.eth.valid = true then doEmitEth s else .go s) = .go (emit s s.pipe.ethPart) :=
  emit_if s _ _ _ fun valid => by rw [doEmitEth, doEncEth, readEth_of_valid valid, withVal_ok]

theorem emitArp_if_valid (s : State) :
    (if s.pipe.arp.valid = true then doEmitArp s else .go s) = .go (emit s s.pipe.arpPart) :=
  emit_if s _ _ _ fun valid => by rw [doEmitArp, doEncArp, readArp_of_valid valid, withVal_ok]

theorem emitIpv4_if_valid (s : State) :
    (if s.pipe.ipv4.valid = true then doEmitIpv4 s else .go s) = .go (emit s s.pipe.ipv4Part) :=
  emit_if s _ _ _ fun valid => by rw [doEmitIpv4, doEncIpv4, readIpv4_of_valid valid, withVal_ok]

theorem doEmitEntries_all {s : State} (entries : s.pipe.sr.len ≤ 10) :
    doEmitEntries s 0 s.pipe.sr.len = .go (emit s s.pipe.srPart) := by
  rw [doEmitEntries_eq s 0 _ (Nat.le_of_eq (Nat.zero_add _)) entries, List.drop_zero, Pipe.srPart]

theorem doEmitAll_eq {s : State} (wf : s.pipe.inBuf.wf) (payload : s.pipe.payloadSet = true)
    (entries : s.pipe.sr.len ≤ 10) : doEmitAll s = .go (emit s s.pipe.frameBytes) := by
  rw [doEmitAll, emitEth_if_valid, andThen_go, emitArp_if_valid, andThen_go, doEmitEntries_all, andThen_go,
    emitIpv4_if_valid, andThen_go, doEmitPayload_of_wf, ← Pipe.payloadPart]
  · simp only [emit_emit, arpPart_emit, srPart_emit, ipv4Part_emit, payloadPart_emit, Pipe.frameBytes,
      List.append_assoc]
  · simpa only [emit_pipe] using wf
  · simpa only [emit_pipe] using payload
  · simpa only [emit_pipe] using entries

theorem doDeparse_of_kept {s : State} (kept : dropped s.pipe = false) (wf : s.pipe.inBuf.wf)
    (payload : s.pipe.payloadSet = true) (entries : s.pipe.sr.len ≤ 10) :
    doDeparse s = .go (setStage (emit s s.pipe.frameBytes) .done) := by
  rw [doDeparse, if_neg (by rw [kept]; exact Bool.false_ne_true), doEmitAll_eq wf payload entries, andThen_go]

end Sys2Proof.Machine
end

section
/-! PROOF. An address-resolution request for an address that is not local, from INGRESS to its egress result (42_decision.md
R244, 46_deparser.md R358, R359). -/

namespace Sys2Proof.Machine

/-! ## The fields of a header as bytes of the frame -/

theorem Spells.unique {bs : List Byte} {w : Nat} {u v : BitVec w} (hu : Spells bs u) (hv : Spells bs v) : u = v :=
  BitVec.eq_of_toNat_eq (hu.2.symm.trans hv.2)

/-- The bytes above a part of a byte string and the bytes below it fall away by a remainder and a quotient. -/
theorem valueOf_middle (xs ys zs : List Byte) :
    valueOf (xs ++ (ys ++ zs)) / 2 ^ (8 * zs.length) % 2 ^ (8 * ys.length) = valueOf ys := by
  rw [← List.append_assoc, valueOf_append, valueOf_append, Nat.mul_comm _ (2 ^ (8 * zs.length)),
    Nat.mul_add_div (Nat.two_pow_pos _), Nat.div_eq_of_lt (valueOf_lt zs), Nat.add_zero,
    Nat.mul_add_mod_of_lt (valueOf_lt ys)]

/-- A byte-aligned slice of a header is spelled by the bytes it came from. -/
theorem spells_slice {bs : List Byte} {n a m lo w : Nat} (length : bs.length = n) (width : w = 8 * m)
    (place : lo + w + 8 * a = 8 * n) : Spells ((bs.drop a).take m) ((bitsOf n bs).extractLsb' lo w) := by
  have midLength : ((bs.drop a).take m).length = m := by
    rw [List.length_take, List.length_drop]
    omega
  have restLength : 8 * ((bs.drop a).drop m).length = lo := by
    rw [List.length_drop, List.length_drop]
    omega
  have middle := valueOf_middle (bs.take a) ((bs.drop a).take m) ((bs.drop a).drop m)
  rw [List.take_append_drop, List.take_append_drop, midLength, restLength, ← width] at middle
  have whole : valueOf bs < 2 ^ (8 * n) := length ▸ valueOf_lt bs
  refine ⟨by rw [midLength, width], ?_⟩
  rw [BitVec.extractLsb'_toNat, bitsOf, BitVec.toNat_ofNat, Nat.mod_eq_of_lt whole, Nat.shiftRight_eq_div_pow, middle]

/-- The Ethernet header that a frame begins with. -/
def ethOfFrame (bytes : List Byte) : Eth := unpackEth (bitsOf 14 (bytes.take 14))

/-- The ArpMessage behind a frame's Ethernet header. -/
def arpOfFrame (bytes : List Byte) : Arp := unpackArp (bitsOf 28 ((bytes.drop 14).take 28))

theorem ethOfFrame_etype {bytes : List Byte} {t : Half} (long : 14 ≤ bytes.length)
    (h : Spells ((bytes.drop 12).take 2) t) : (ethOfFrame bytes).etype = t := by
  have slice := spells_slice (bs := bytes.take 14) (n := 14) (a := 12) (m := 2) (lo := 0) (w := 16)
    (by rw [List.length_take]; omega) rfl rfl
  rw [List.drop_take, List.take_take] at slice
  exact slice.unique h

theorem spells_arpOfFrame {bytes : List Byte} {a m lo w : Nat} (long : 42 ≤ bytes.length) (width : w = 8 * m)
    (place : lo + w + 8 * a = 8 * 28) :
    Spells ((bytes.drop (14 + a)).take m) ((bitsOf 28 ((bytes.drop 14).take 28)).extractLsb' lo w) := by
  have slice := spells_slice (bs := (bytes.drop 14).take 28) (a := a)
    (by rw [List.length_take, List.length_drop]; omega) width place
  rwa [List.drop_take, List.take_take, List.drop_drop, Nat.min_eq_left (by omega)] at slice

theorem arpOfFrame_oper {bytes : List Byte} {o : Half} (long : 42 ≤ bytes.length)
    (h : Spells ((bytes.drop 20).take 2) o) : (arpOfFrame bytes).oper = o :=
  (spells_arpOfFrame (a := 6) long rfl rfl).unique h

theorem ipBytes_arpOfFrame_tpa {bytes : List Byte} (long : 42 ≤ bytes.length) :
    ipBytes (arpOfFrame bytes).tpa = (bytes.drop 38).take 4 := by
  have field : Spells ((bytes.drop 38).take 4) (arpOfFrame bytes).tpa := spells_arpOfFrame (a := 24) long rfl rfl
  exact ((spells_ipBytes _).bytesOf_eq (n := 4)).symm.trans (field.bytesOf_eq (n := 4))

theorem ethBytes_ethOfFrame {bytes : List Byte} (long : 14 ≤ bytes.length) :
    ethBytes (ethOfFrame bytes) = bytes.take 14 := by
  rw [ethBytes, ethOfFrame, packEth_unpackEth, bytesOf_bitsOf 14]
  rw [List.length_take, Nat.min_eq_left long]

theorem arpBytes_arpOfFrame {bytes : List Byte} (long : 42 ≤ bytes.length) :
    arpBytes (arpOfFrame bytes) = (bytes.drop 14).take 28 := by
  rw [arpBytes, arpOfFrame, packArp_unpackArp, bytesOf_bitsOf 28]
  rw [List.length_take, List.length_drop]
  omega

/-! ## The run -/

theorem step_alone {s : State} (distinct : s.params.distinct) (alone : s.agenda = []) : step s = ownStep s := by
  rw [step_own distinct (turnOf_of_nil alone), popTurn_of_nil alone]

/-- What P_START leaves of a frame that begins with an Ethernet header and an ArpMessage (41_parser.md R201). -/
def Pipe.ethParsed (p : Pipe) (bytes : List Byte) : Pipe :=
  { p with eth := ethOfFrame bytes, cur := 14, pstate := .parseArp }

/-- What P_ARP then leaves (41_parser.md R202). -/
def Pipe.arpParsed (p : Pipe) (bytes : List Byte) : Pipe :=
  { p.ethParsed bytes with arp := arpOfFrame bytes, cur := 42, pstate := .accept }

/-- What P_ACCEPT then leaves (41_parser.md R205). -/
def Pipe.arpAccepted (p : Pipe) (bytes : List Byte) : Pipe :=
  { p.arpParsed bytes with payloadOff := 42, payloadSet := true, stage := .decide }

/-- What INGRESS leaves of a frame that it takes in (20_memory.md R95). -/
def State.takeIn (s : State) (bytes : List Byte) (port : Port) : State :=
  { s with pipe := startFrame s.pipe bytes port s.draws, draws := s.draws + 1 }

/-- A frame that has just come in, in a pipeline that nothing disturbs. -/
structure FreshFrame (s : State) (bytes : List Byte) : Prop where
  distinct : s.params.distinct
  alone : s.agenda = []
  stage : s.pipe.stage = .parse
  state : s.pipe.pstate = .start
  cur : s.pipe.cur = 0
  frame : s.pipe.inBuf = bufferOf bytes

theorem freshFrame_takeIn {s : State} (distinct : s.params.distinct) (alone : s.agenda = []) (bytes : List Byte)
    (port : Port) : FreshFrame (s.takeIn bytes port) bytes := ⟨distinct, alone, rfl, rfl, rfl, rfl⟩

theorem nextBytes_of_frame {p : Pipe} {bytes : List Byte} (h : p.inBuf = bufferOf bytes) (n : Nat) :
    nextBytes p n = (bytes.drop p.cur).take n := by
  rw [nextBytes, h, bufferOf_contents]

theorem step_pStart_of_arp {s : State} {bytes : List Byte} (fresh : FreshFrame s bytes) (long : 42 ≤ bytes.length)
    (arp : (ethOfFrame bytes).etype = Config.etherArp) : step s = .next (s.setPipe (s.pipe.ethParsed bytes)) := by
  obtain ⟨distinct, alone, stage, state, cur, frame⟩ := fresh
  have wf : s.pipe.inBuf.wf := frame ▸ bufferOf_wf bytes
  have room : 14 ≤ s.pipe.inBuf.size - s.pipe.cur := by
    rw [frame, bufferOf_size, cur]
    omega
  have eth : unpackEth (bitsOf 14 (nextBytes s.pipe 14)) = ethOfFrame bytes := by
    rw [nextBytes_of_frame frame, cur]
    rfl
  have start := (pStartDecodesAndBranchesOnTheTypeTag s wf).2 room
  rw [eth, cur] at start
  dsimp only at start
  rw [if_pos arp] at start
  rw [step_alone distinct alone, ownStep_parse stage, state]
  exact start

theorem step_pArp_of_arp {s : State} {bytes : List Byte} (fresh : FreshFrame s bytes) (long : 42 ≤ bytes.length) :
    step (s.setPipe (s.pipe.ethParsed bytes)) = .next (s.setPipe (s.pipe.arpParsed bytes)) := by
  obtain ⟨distinct, alone, stage, -, -, frame⟩ := fresh
  have room : 28 ≤ s.pipe.inBuf.size - 14 := by
    rw [frame, bufferOf_size]
    omega
  have wf : s.pipe.inBuf.wf := frame ▸ bufferOf_wf bytes
  have arp : unpackArp (bitsOf 28 (nextBytes (s.pipe.ethParsed bytes) 28)) = arpOfFrame bytes := by
    rw [nextBytes_of_frame (p := s.pipe.ethParsed bytes) frame]
    rfl
  obtain ⟨-, parsed, -⟩ := pArpAndPIpv4DecodeAndAccept (s.setPipe (s.pipe.ethParsed bytes)) wf
  have next := parsed room
  rw [State.setPipe_pipe, arp] at next
  rw [step_alone (s := s.setPipe (s.pipe.ethParsed bytes)) distinct alone,
    ownStep_parse (s := s.setPipe (s.pipe.ethParsed bytes)) stage]
  exact next

theorem step_pAccept_of_arp {s : State} {bytes : List Byte} (fresh : FreshFrame s bytes) :
    step (s.setPipe (s.pipe.arpParsed bytes)) = .next (s.setPipe (s.pipe.arpAccepted bytes)) := by
  obtain ⟨distinct, alone, stage, -⟩ := fresh
  rw [step_alone (s := s.setPipe (s.pipe.arpParsed bytes)) distinct alone,
    ownStep_parse (s := s.setPipe (s.pipe.arpParsed bytes)) stage]
  exact pAcceptRecordsThePayloadOffset _

theorem decisionRow_of_nonlocal {s : State} (type : s.pipe.eth.etype = Config.etherArp)
    (valid : s.pipe.arp.valid = true) (request : s.pipe.arp.oper = Config.operRequest)
    (nonlocal : ¬ lasContains s.snapshot.las s.pipe.arp.tpa = true) : s.decisionRow = .arpNonlocal := by
  rw [State.decisionRow, if_pos ⟨type, valid⟩, if_pos request, if_neg nonlocal]

theorem step_decide_of_nonlocal {s : State} (distinct : s.params.distinct) (alone : s.agenda = [])
    (stage : s.pipe.stage = .decide) (valid : s.pipe.eth.valid = true) (row : s.decisionRow = .arpNonlocal) :
    step s = .next (setStage (setEgress s Config.noPort) .csum) := by
  rw [decisionStageRunsDispatchOnceThenMovesToCsum s distinct stage valid (turnOf_of_nil alone), popTurn_of_nil alone,
    exec_dispatch_of_valid distinct valid, row]
  rfl

theorem step_csum_of_invalid {s : State} (distinct : s.params.distinct) (alone : s.agenda = [])
    (stage : s.pipe.stage = .csum) (invalid : s.pipe.ipv4.valid = false) : step s = .next (setStage s .deparse) := by
  rw [step_alone distinct alone, ownStep_csum stage, if_neg (by rw [invalid]; exact Bool.false_ne_true)]

theorem step_deparse_of_kept {s : State} (distinct : s.params.distinct) (alone : s.agenda = [])
    (stage : s.pipe.stage = .deparse) (kept : dropped s.pipe = false) (wf : s.pipe.inBuf.wf)
    (payload : s.pipe.payloadSet = true) (entries : s.pipe.sr.len ≤ 10) :
    step s = .next (setStage (emit s s.pipe.frameBytes) .done) := by
  rw [step_alone distinct alone, ownStep_deparse stage]
  exact congrArg Flow.outcome (doDeparse_of_kept kept wf payload entries)

/-- The three parser steps of a frame with an ArpMessage. -/
theorem runOwn_arpAccepted {s : State} {bytes : List Byte} (fresh : FreshFrame s bytes) (long : 42 ≤ bytes.length)
    (arp : (ethOfFrame bytes).etype = Config.etherArp) (k : Nat) :
    runOwn (k + 3) s = runOwn k (s.setPipe (s.pipe.arpAccepted bytes)) := by
  rw [runOwn_succ (step_pStart_of_arp fresh long arp), runOwn_succ (step_pArp_of_arp fresh long),
    runOwn_succ (step_pAccept_of_arp fresh)]

/-- What the decision, the checksum stage and the serializer leave of a nonlocal request. -/
def Pipe.sentToSentinel (p : Pipe) : Pipe :=
  { p with egressValid := true, egressPort := Config.noPort, outBuf := appendBytes p.outBuf p.frameBytes, stage := .done }

/-- The three steps after the parser of a nonlocal request. -/
theorem runOwn_sentToSentinel {s : State} (distinct : s.params.distinct) (alone : s.agenda = [])
    (stage : s.pipe.stage = .decide) (valid : s.pipe.eth.valid = true) (row : s.decisionRow = .arpNonlocal)
    (invalid : s.pipe.ipv4.valid = false) (noError : s.pipe.err = .none) (noDrop : s.pipe.drop = false)
    (wf : s.pipe.inBuf.wf) (payload : s.pipe.payloadSet = true) (entries : s.pipe.sr.len ≤ 10) :
    runOwn 3 s = .next (s.setPipe s.pipe.sentToSentinel) := by
  have csum := step_csum_of_invalid (s := setStage (setEgress s Config.noPort) .csum) distinct alone rfl invalid
  have deparse := step_deparse_of_kept (s := setStage (setStage (setEgress s Config.noPort) .csum) .deparse)
    distinct alone rfl (by simp [dropped, noError, noDrop]) wf payload entries
  rw [runOwn_succ (step_decide_of_nonlocal distinct alone stage valid row), runOwn_succ csum, runOwn_succ deparse]
  rfl

/-- A frame of an Ethernet header and an ArpMessage that the decision stage did not rewrite is emitted as it came
(46_deparser.md R359). -/
theorem frameBytes_arpAccepted {p : Pipe} {bytes : List Byte} (long : 42 ≤ bytes.length)
    (frame : p.inBuf = bufferOf bytes) (noEntry : p.sr.len = 0) (noIpv4 : p.ipv4.valid = false) :
    (p.arpAccepted bytes).frameBytes = bytes := by
  have eth : (p.arpAccepted bytes).ethPart = bytes.take 14 := ethBytes_ethOfFrame (by omega)
  have arp : (p.arpAccepted bytes).arpPart = (bytes.drop 14).take 28 := arpBytes_arpOfFrame long
  have sr : (p.arpAccepted bytes).srPart = [] :=
    congrArg (fun n => (p.sr.e.toList.take n).flatMap srBytes) noEntry
  have ipv4 : (p.arpAccepted bytes).ipv4Part = [] :=
    if_neg fun valid => Bool.false_ne_true (noIpv4.symm.trans valid)
  have payload : (p.arpAccepted bytes).payloadPart = bytes.drop 42 := by
    rw [← bufferOf_contents bytes, ← frame]
    rfl
  rw [Pipe.frameBytes, eth, arp, sr, ipv4, payload, List.append_nil, List.append_nil, List.append_assoc]
  rw [show bytes.drop 42 = (bytes.drop 14).drop 28 by rw [List.drop_drop], List.take_append_drop,
    List.take_append_drop]

theorem result_sentToSentinel {p : Pipe} (noError : p.err = .none) (noDrop : p.drop = false) :
    p.sentToSentinel.result
      = { verdict := .sentinel, port := some Config.noPort, bytes := contents p.outBuf ++ p.frameBytes,
          cause := .none } := by
  rw [← appendBytes_contents, Pipe.result, if_neg (by simp [Pipe.sentToSentinel, noError, noDrop])]
  exact if_pos rfl

/-- A nonlocal request that has just come in is done after three parser steps and the three steps of ARP_NONLOCAL's path. -/
theorem runOwn_takeIn_of_nonlocal {s : State} {bytes : List Byte} (port : Port) (distinct : s.params.distinct)
    (alone : s.agenda = []) (long : 42 ≤ bytes.length) (arp : (ethOfFrame bytes).etype = Config.etherArp)
    (request : (arpOfFrame bytes).oper = Config.operRequest)
    (nonlocal : ¬ lasContains s.cfg.las (arpOfFrame bytes).tpa = true) :
    runOwn 6 (s.takeIn bytes port)
      = .next ((s.takeIn bytes port).setPipe ((s.takeIn bytes port).pipe.arpAccepted bytes).sentToSentinel) := by
  have row : ((s.takeIn bytes port).setPipe ((s.takeIn bytes port).pipe.arpAccepted bytes)).decisionRow = .arpNonlocal :=
    decisionRow_of_nonlocal arp rfl request nonlocal
  rw [runOwn_arpAccepted (freshFrame_takeIn distinct alone bytes port) long arp 3]
  exact runOwn_sentToSentinel (s := (s.takeIn bytes port).setPipe ((s.takeIn bytes port).pipe.arpAccepted bytes))
    distinct alone rfl rfl row rfl rfl rfl (bufferOf_wf bytes) rfl (Nat.zero_le 10)

/-- Settles O59: the parser's headers hold the frame's bytes, ARP_NONLOCAL's path writes no header, and DEPARSE emits them
again. -/
theorem nonlocalRequestsLeaveByteForByteUnchanged : Obligations.NonlocalRequestsLeaveByteForByteUnchanged := by
  intro s bytes port distinct alone idle real fits long type oper nonlocal
  have arp : (ethOfFrame bytes).etype = Config.etherArp := ethOfFrame_etype (by omega) (type ▸ ⟨rfl, rfl⟩)
  have request : (arpOfFrame bytes).oper = Config.operRequest := arpOfFrame_oper long (oper ▸ ⟨rfl, rfl⟩)
  have notMember : ¬ lasContains s.cfg.las (arpOfFrame bytes).tpa = true := by
    rw [lasContains_iff]
    rintro ⟨j, valid, addr⟩
    exact nonlocal ⟨j, valid, by rw [addr, ipBytes_arpOfFrame_tpa long]⟩
  refine ⟨s.takeIn bytes port, _, execIngress_of_accepted idle real fits,
    runOwn_takeIn_of_nonlocal port distinct alone long arp request notMember, rfl, ?_⟩
  rw [egressResult_eq, State.setPipe_pipe, result_sentToSentinel rfl rfl, frameBytes_arpAccepted long rfl rfl rfl]
  rfl

end Sys2Proof.Machine
end

section
/-! PROOF. The source-route stack processor: what the pop leaves of a stack, what a hop leaves of a frame, and that one hop on
an accepted frame leaves an accepted frame (43_source_route.md R281 to R285). -/

namespace Sys2Proof.Machine

/-! ## The stack after a pop -/

/-- What SR_POP leaves of a stack (43_source_route.md R282). -/
def SrStack.popped (t : SrStack) : SrStack := { len := t.len - 1, e := shiftEntries t.len t.e }

theorem SrStack.popped_len (t : SrStack) : t.popped.len = t.len - 1 := rfl

theorem SrStack.popped_entry_of_lt {t : SrStack} {i : Nat} (le : t.len ≤ 10) (h : i < t.len - 1) :
    t.popped.e[i]? = t.e[i + 1]? := by
  rw [popped, shiftEntries_getElem? _ _ _ le, if_pos (by omega)]

theorem SrStack.popped_entry_of_ge {t : SrStack} {i : Nat} (le : t.len ≤ 10) (h : t.len - 1 ≤ i) :
    t.popped.e[i]? = t.e[i]? := by
  rw [popped, shiftEntries_getElem? _ _ _ le, if_neg (by omega)]

theorem exec_srPop_of_le {s : State} (nonempty : 1 ≤ s.pipe.sr.len) (le : s.pipe.sr.len ≤ 10) :
    exec .srPop s = .next (setSr s s.pipe.sr.popped) :=
  congrArg Flow.outcome (doSrPop_of_le nonempty le)

/-- Settles O27: the stack is `SrStack.popped`. -/
theorem srPopShiftsTheEntriesForward : Obligations.SrPopShiftsTheEntriesForward :=
  fun s nonempty le => ⟨s.pipe.sr.popped, exec_srPop_of_le nonempty le, s.pipe.sr.popped_len,
    fun _ => SrStack.popped_entry_of_lt le, fun _ => SrStack.popped_entry_of_ge le⟩

/-- The flag of the front entry tells whether it is the last one (41_parser.md R215, 43_source_route.md R284). -/
theorem front_bos_iff_of_wholeStack {t : SrStack} {e : SrEntry} (whole : wholeStack t) (front : t.e[0]? = some e) :
    e.bos = true ↔ t.len = 1 := by
  obtain ⟨nonempty, -, opened, last⟩ := whole
  constructor
  · intro bos
    by_contra more
    have isOpen := opened 0 (by omega)
    rw [front, Option.map_some, bos] at isOpen
    exact absurd isOpen (by decide)
  · intro one
    rw [one, front] at last
    exact Option.some.inj last

/-- The rest of a whole stack is a whole stack (43_source_route.md R285). -/
theorem wholeStack_popped {t : SrStack} (whole : wholeStack t) (two : 2 ≤ t.len) : wholeStack t.popped := by
  obtain ⟨-, le, opened, last⟩ := whole
  refine ⟨?_, ?_, fun i h => ?_, ?_⟩
  · rw [SrStack.popped_len]
    omega
  · rw [SrStack.popped_len]
    omega
  · rw [SrStack.popped_len] at h
    rw [SrStack.popped_entry_of_lt le (by omega)]
    exact opened (i + 1) (by omega)
  · rw [SrStack.popped_len, SrStack.popped_entry_of_lt le (by omega), Nat.sub_add_cancel (by omega)]
    exact last

/-! ## The frame after a hop -/

/-- What SR_HOP leaves of a frame with the front entry `e`, but for the TTL (43_source_route.md R281). -/
def Pipe.hopped (p : Pipe) (e : SrEntry) : Pipe :=
  { p with
    sr := p.sr.popped
    egressValid := true
    egressPort := BitVec.ofNat 16 e.port.toNat
    eth := { p.eth with etype := if e.bos then Config.etherIpv4 else p.eth.etype } }

@[simp] theorem Pipe.hopped_ipv4 (p : Pipe) (e : SrEntry) : (p.hopped e).ipv4 = p.ipv4 := rfl

/-- SR_HOP is that hop and then, for a valid IPv4 header, TTL_DEC (43_source_route.md R281). -/
theorem doSrHop_of_front {s : State} {e : SrEntry} (nonempty : 1 ≤ s.pipe.sr.len) (le : s.pipe.sr.len ≤ 10)
    (front : s.pipe.sr.e[0]? = some e) :
    doSrHop s = if s.pipe.ipv4.valid then doTtlDec (s.setPipe (s.pipe.hopped e))
      else .go (s.setPipe (s.pipe.hopped e)) := by
  have read : readEntry s 0 = .ok e := by
    rw [readEntry, if_pos (Nat.lt_of_succ_le nonempty), front]
  have port : egressPortOf e = BitVec.ofNat 16 e.port.toNat := (BitVec.ofNat_toNat 16 e.port).symm
  rw [doSrHop, read, withVal_ok, doSrPop_of_le nonempty le, andThen_go, retagIfLast_eq, port]
  rfl

/-- What SR_HOP leaves of a frame in the end: TTL_DEC did not run, decremented the TTL, or found it expired. -/
def Pipe.hopEnded (p : Pipe) (e : SrEntry) (decremented expired : Bool) : Pipe :=
  { p.hopped e with
    ipv4 := { p.ipv4 with ttl := if decremented then p.ipv4.ttl - 1#8 else p.ipv4.ttl }
    err := if expired then .ttlExpired else p.err
    drop := expired || p.drop }

theorem exec_srHop_of_front {s : State} {e : SrEntry} (nonempty : 1 ≤ s.pipe.sr.len) (le : s.pipe.sr.len ≤ 10)
    (front : s.pipe.sr.e[0]? = some e) {expired : Bool}
    (expiry : expired = (s.pipe.ipv4.valid && s.params.ttlZeroDrop && decide (s.pipe.ipv4.ttl.toNat ≤ 1))) :
    exec .srHop s = .next (s.setPipe (s.pipe.hopEnded e (s.pipe.ipv4.valid && !expired) expired)) := by
  show (doSrHop s).outcome = _
  rw [doSrHop_of_front nonempty le front]
  cases valid : s.pipe.ipv4.valid with
  | false =>
    rw [valid, Bool.false_and, Bool.false_and] at expiry
    rw [expiry]
    rfl
  | true =>
    rw [valid, Bool.true_and] at expiry
    rw [if_pos rfl, doTtlDec_of_valid (s := s.setPipe (s.pipe.hopped e)) valid, State.setPipe_params,
      State.setPipe_pipe, Pipe.hopped_ipv4, ← expiry]
    cases expired with
    | false => rfl
    | true => rfl

theorem exec_srHop_of_alive {s : State} {e : SrEntry} (nonempty : 1 ≤ s.pipe.sr.len) (le : s.pipe.sr.len ≤ 10)
    (front : s.pipe.sr.e[0]? = some e) (valid : s.pipe.ipv4.valid = true)
    (alive : s.params.ttlZeroDrop = false ∨ 1 < s.pipe.ipv4.ttl.toNat) :
    exec .srHop s = .next (s.setPipe (s.pipe.hopEnded e true false)) := by
  have kept : false = (s.pipe.ipv4.valid && s.params.ttlZeroDrop && decide (s.pipe.ipv4.ttl.toNat ≤ 1)) := by
    rcases alive with keeps | alive
    · rw [keeps, Bool.and_false, Bool.false_and]
    · rw [decide_eq_false (Nat.not_le.2 alive), Bool.and_false]
  rw [exec_srHop_of_front nonempty le front kept, valid]
  rfl

/-- Settles O28: the pop is `exec_srPop_of_le`, and `Pipe.hopEnded` is what the statement writes out. -/
theorem srHopForwardsToTheFrontEntry : Obligations.SrHopForwardsToTheFrontEntry :=
  fun s _ nonempty le front => ⟨s.pipe.sr.popped, exec_srPop_of_le nonempty le, exec_srHop_of_front nonempty le front rfl⟩

/-! ## One hop on an accepted frame -/

/-- An accepted frame with the source-route tag has the second of the four header stacks (41_parser.md R215). -/
theorem sourceRoute_of_acceptedStack {c : Params} {p : Pipe} (distinct : c.distinct) (accepted : acceptedStack c p)
    (type : p.eth.etype = c.srType) : p.arp.valid = false ∧ wholeStack p.sr ∧ p.ipv4.valid = true := by
  obtain ⟨notIpv4, notArp, -⟩ := distinct
  obtain ⟨-, ⟨arp, -⟩ | ⟨-, noArp, whole, ipv4, -⟩ | ⟨isIpv4, -⟩ | ⟨⟨-, notSr, -⟩, -⟩⟩ := accepted
  · exact absurd (type.symm.trans arp) notArp
  · exact ⟨noArp, whole, ipv4⟩
  · exact absurd (type.symm.trans isIpv4) notIpv4
  · exact absurd type notSr

theorem hopped_etype_eq_ipv4_iff {p : Pipe} {e : SrEntry} (notIpv4 : p.eth.etype ≠ Config.etherIpv4) :
    (p.hopped e).eth.etype = Config.etherIpv4 ↔ e.bos = true := by
  rw [Pipe.hopped]
  cases e.bos with
  | false => exact iff_of_false notIpv4 Bool.false_ne_true
  | true => exact iff_of_true rfl rfl

/-- With entries left the frame keeps its tag and a whole stack (43_source_route.md R285). -/
theorem hopped_of_more {p : Pipe} {e : SrEntry} (whole : wholeStack p.sr) (front : p.sr.e[0]? = some e)
    (two : 2 ≤ p.sr.len) : (p.hopped e).eth.etype = p.eth.etype ∧ wholeStack (p.hopped e).sr := by
  have notLast : ¬ e.bos = true := fun bos => by
    rw [(front_bos_iff_of_wholeStack whole front).1 bos] at two
    omega
  exact ⟨if_neg notLast, wholeStack_popped whole two⟩

/-- After its last entry the frame is a plain IPv4 frame (43_source_route.md R285). -/
theorem hopped_of_last {p : Pipe} {e : SrEntry} (whole : wholeStack p.sr) (front : p.sr.e[0]? = some e)
    (one : p.sr.len = 1) : (p.hopped e).eth.etype = Config.etherIpv4 ∧ (p.hopped e).sr.len = 0 :=
  ⟨if_pos ((front_bos_iff_of_wholeStack whole front).2 one), congrArg (· - 1) one⟩

/-- What a hop leaves of a source-route frame is one of the parser's header stacks, whatever the TTL is now. -/
theorem acceptedStack_hopped {c : Params} {p : Pipe} {e : SrEntry} {i : Ipv4} (type : p.eth.etype = c.srType)
    (eth : p.eth.valid = true) (noArp : p.arp.valid = false) (whole : wholeStack p.sr) (front : p.sr.e[0]? = some e)
    (ipv4 : i.valid = true) :
    acceptedStack c { p.hopped e with ipv4 := i, cur := 34 + 2 * (p.hopped e).sr.len } := by
  have ⟨nonempty, _⟩ := whole
  refine ⟨eth, .inr ?_⟩
  rcases Nat.eq_or_lt_of_le nonempty with one | two
  · obtain ⟨tag, noEntry⟩ := hopped_of_last whole front one.symm
    exact .inr (.inl ⟨tag, noArp, noEntry, ipv4, by rw [noEntry]⟩)
  · obtain ⟨tag, rest⟩ := hopped_of_more whole front two
    exact .inl ⟨tag.trans type, noArp, rest, ipv4, rfl⟩

/-- Settles O29: `exec_srHop_of_alive` gives the state, and `acceptedStack_hopped` the header stack in it. -/
theorem oneHopLeavesAnAcceptedFrameWithOneEntryLess : Obligations.OneHopLeavesAnAcceptedFrameWithOneEntryLess := by
  intro s e distinct accepted type front alive
  obtain ⟨noArp, whole, ipv4⟩ := sourceRoute_of_acceptedStack distinct accepted type
  obtain ⟨eth, -⟩ := accepted
  have ⟨notIpv4, _⟩ := distinct
  have ⟨nonempty, le, _⟩ := whole
  refine ⟨_, exec_srHop_of_alive nonempty le front ipv4 alive, ?len, ?egressValid, ?port, ?drop, ?retag, ?bottom,
    eth, noArp, ipv4, ?ttl, ?more, ?last, ?stack⟩
  case len | egressValid | drop | ttl => rfl
  case port => exact Nat.mod_eq_of_lt (by omega)
  case retag => exact hopped_etype_eq_ipv4_iff (type ▸ notIpv4)
  case bottom => exact front_bos_iff_of_wholeStack whole front
  case more => exact fun two => (hopped_of_more whole front two).imp_left type.subst
  case last => exact fun one => (hopped_of_last whole front one).2
  case stack => exact acceptedStack_hopped type eth noArp whole front ipv4

end Sys2Proof.Machine
end

section
/-! PROOF. The lookup engine and the IPv4 forwarding path: what a lookup answers, in which tables it answers the same, and what
IPV4_FWD_HIT writes (44_lpm.md R301 to R308). -/

namespace Sys2Proof.Machine

/-! ## Lookups -/

theorem lookupRoute_eq_none_iff (ft : List FtEntry) (a : Ip) :
    lookupRoute ft a = none ↔ ∀ e ∈ ft, ¬ matchesAddr e a := by
  rw [lookupRoute, Option.map_eq_none_iff, longestMatch_eq_none_iff]
  simp only [← hits_iff, Bool.not_eq_true]

/-- A route that was found is that of a longest matching entry. -/
theorem exists_longest_of_lookupRoute_eq_some {ft : List FtEntry} {a : Ip} {q : Route}
    (found : lookupRoute ft a = some q) :
    ∃ e ∈ ft, matchesAddr e a ∧ q.port = e.port ∧ q.mac = e.mac
      ∧ ∀ f ∈ ft, matchesAddr f a → f.plen.toNat ≤ e.plen.toNat := by
  obtain ⟨e, longest, rfl⟩ := Option.map_eq_some_iff.1 found
  obtain ⟨mem, hit, top⟩ := (longestMatch_spec a ft).2 e longest
  exact ⟨e, mem, (hits_iff e a).1 hit, rfl, rfl, fun f hf hf_matches => top f hf ((hits_iff f a).2 hf_matches)⟩

/-- Settles O30: the answer is `lookupRoute` in the frame's snapshot, and the latch is all that is written. -/
theorem lpmLookupReturnsALongestMatchingEntry : Obligations.LpmLookupReturnsALongestMatchingEntry :=
  fun s a => ⟨lpmLookup s a, rfl, lookupRoute_eq_none_iff s.snapshot.ft a,
    fun _ => exists_longest_of_lookupRoute_eq_some⟩

/-- With one entry per key the longest match is told by which entries there are, and not by their places (44_lpm.md R303). -/
theorem longestMatch_of_perm {ft gt : List FtEntry} (a : Ip)
    (unique : ft.Pairwise fun x y => ftKey x.pfx x.plen ≠ ftKey y.pfx y.plen) (perm : ft.Perm gt) :
    longestMatch a gt = longestMatch a ft := by
  cases before : longestMatch a ft with
  | none =>
    have none_hits := (longestMatch_eq_none_iff a ft).1 before
    exact (longestMatch_eq_none_iff a gt).2 fun e he => none_hits e (perm.mem_iff.2 he)
  | some y =>
    obtain ⟨hy, hit, top⟩ := (longestMatch_spec a ft).2 y before
    exact longestMatch_eq_some (unique.perm perm Ne.symm) (perm.mem_iff.1 hy) hit
      fun f hf => top f (perm.mem_iff.2 hf)

/-- Settles O31: of a legal table `longestMatch_of_perm` needs the unique keys only. -/
theorem lookupDoesNotDependOnTheOrderOfEntries : Obligations.LookupDoesNotDependOnTheOrderOfEntries := by
  intro ft gt a ⟨_, _, unique⟩ perm
  rw [lookupRoute, longestMatch_of_perm a unique perm, lookupRoute]

/-! ## IPV4_FWD_HIT -/

/-- What IPV4_FWD_HIT leaves of a frame with the route `r`, but for TTL_DEC (44_lpm.md R306). -/
def Pipe.routed (p : Pipe) (r : Route) : Pipe :=
  { p with egressValid := true, egressPort := r.port, eth := { p.eth with dst := r.mac } }

@[simp] theorem Pipe.routed_ipv4 (p : Pipe) (r : Route) : (p.routed r).ipv4 = p.ipv4 := rfl

theorem doIpv4FwdHit_of_route {s : State} {r : Route} (valid : s.pipe.ipv4.valid = true)
    (route : lookupRoute s.snapshot.ft s.pipe.ipv4.dst = some r) :
    doIpv4FwdHit s = doTtlDec (s.setPipe (s.pipe.routed r)) := by
  rw [doIpv4FwdHit, readIpv4_of_valid valid, withVal_ok, lpmLookup, route]
  rfl

/-- What IPV4_FWD_HIT leaves of a frame in the end: TTL_DEC decremented the TTL, or found it expired. -/
def Pipe.fwdEnded (p : Pipe) (r : Route) (expired : Bool) : Pipe :=
  { p.routed r with
    ipv4 := { p.ipv4 with ttl := if expired then p.ipv4.ttl else p.ipv4.ttl - 1#8 }
    err := if expired then .ttlExpired else p.err
    drop := expired || p.drop }

theorem exec_ipv4FwdHit_of_route {s : State} {r : Route} (valid : s.pipe.ipv4.valid = true)
    (route : lookupRoute s.snapshot.ft s.pipe.ipv4.dst = some r) {expired : Bool}
    (expiry : expired = (s.params.ttlZeroDrop && decide (s.pipe.ipv4.ttl.toNat ≤ 1))) :
    exec .ipv4FwdHit s = .next (s.setPipe (s.pipe.fwdEnded r expired)) := by
  show (doIpv4FwdHit s).outcome = _
  rw [doIpv4FwdHit_of_route valid route, doTtlDec_of_valid (s := s.setPipe (s.pipe.routed r)) valid,
    State.setPipe_params, State.setPipe_pipe, Pipe.routed_ipv4, ← expiry]
  cases expired with
  | false => rfl
  | true => rfl

/-- Settles O32: `Pipe.fwdEnded` is what the statement writes out. -/
theorem ipv4FwdHitForwardsToTheMatchedEntry : Obligations.Ipv4FwdHitForwardsToTheMatchedEntry :=
  fun _ _ valid route => exec_ipv4FwdHit_of_route valid route rfl

end Sys2Proof.Machine
end

section
/-! PROOF. The value CSUM_COMPUTE gives is the header's checksum (45_checksum.md R331). -/

namespace Sys2Proof.Machine

/-- The words fit the range in which two carry rounds are enough (45_checksum.md R331). -/
theorem headerWordSum_le (i : Ipv4) : headerWordSum i ≤ 0x9FFF6 := by
  rw [headerWordSum]
  omega

theorem sum_wordsOf_ipv4Bytes (i : Ipv4) : ((wordsOf (ipv4Bytes i)).set 5 0).sum = headerWordSum i := by
  rw [wordsOf_ipv4Bytes]
  simp [Nat.add_assoc]

theorem isChecksumOf_checksumIpv4 (i : Ipv4) : isChecksumOf (checksumIpv4 i) i := by
  obtain ⟨le, congruent, zero⟩ := foldCarry_two (headerWordSum i) (headerWordSum_le i)
  rw [checksumIpv4, checksumOf, sum_wordsOf_ipv4Bytes]
  exact ⟨_, le, congruent, zero, complement_toNat _ le⟩

end Sys2Proof.Machine
end

section
/-! PROOF. An IPv4 frame that a route forwards, from INGRESS to its egress result (44_lpm.md R306, R308; 45_checksum.md R333;
46_deparser.md R350, R358). -/

namespace Sys2Proof.Machine

/-! ## The parser -/

/-- The Ipv4Header behind a frame's Ethernet header. -/
def ipv4OfFrame (bytes : List Byte) : Ipv4 := unpackIpv4 (bitsOf 20 ((bytes.drop 14).take 20))

/-- What P_START leaves of a frame that begins with an Ethernet header and an Ipv4Header (41_parser.md R201). -/
def Pipe.ipv4Started (p : Pipe) (bytes : List Byte) : Pipe :=
  { p with eth := ethOfFrame bytes, cur := 14, pstate := .parseIpv4 }

/-- What P_IPV4 then leaves (41_parser.md R204). -/
def Pipe.ipv4Parsed (p : Pipe) (bytes : List Byte) : Pipe :=
  { p.ipv4Started bytes with ipv4 := ipv4OfFrame bytes, cur := 34, pstate := .accept }

/-- What P_ACCEPT then leaves (41_parser.md R205). -/
def Pipe.ipv4Accepted (p : Pipe) (bytes : List Byte) : Pipe :=
  { p.ipv4Parsed bytes with payloadOff := 34, payloadSet := true, stage := .decide }

theorem step_pStart_of_ipv4 {s : State} {bytes : List Byte} (fresh : FreshFrame s bytes) (long : 34 ≤ bytes.length)
    (type : (ethOfFrame bytes).etype = Config.etherIpv4) :
    step s = .next (s.setPipe (s.pipe.ipv4Started bytes)) := by
  obtain ⟨distinct, alone, stage, state, cur, frame⟩ := fresh
  have ⟨notSr, _, notArp⟩ := distinct
  have wf : s.pipe.inBuf.wf := frame ▸ bufferOf_wf bytes
  have room : 14 ≤ s.pipe.inBuf.size - s.pipe.cur := by
    rw [frame, bufferOf_size, cur]
    omega
  have eth : unpackEth (bitsOf 14 (nextBytes s.pipe 14)) = ethOfFrame bytes := by
    rw [nextBytes_of_frame frame, cur, List.drop_zero, ethOfFrame]
  have start := (pStartDecodesAndBranchesOnTheTypeTag s wf).2 room
  rw [eth, cur] at start
  dsimp only at start
  rw [type, if_neg notArp, if_neg notSr.symm, if_pos rfl] at start
  rw [step_alone distinct alone, ownStep_parse stage, state]
  exact start

theorem step_pIpv4_of_ipv4 {s : State} {bytes : List Byte} (fresh : FreshFrame s bytes) (long : 34 ≤ bytes.length) :
    step (s.setPipe (s.pipe.ipv4Started bytes)) = .next (s.setPipe (s.pipe.ipv4Parsed bytes)) := by
  obtain ⟨distinct, alone, stage, -, -, frame⟩ := fresh
  have wf : s.pipe.inBuf.wf := frame ▸ bufferOf_wf bytes
  have room : 20 ≤ s.pipe.inBuf.size - 14 := by
    rw [frame, bufferOf_size]
    omega
  have ipv4 : unpackIpv4 (bitsOf 20 (nextBytes (s.pipe.ipv4Started bytes) 20)) = ipv4OfFrame bytes := by
    rw [nextBytes_of_frame (p := s.pipe.ipv4Started bytes) frame]
    rfl
  obtain ⟨-, -, -, parsed⟩ := pArpAndPIpv4DecodeAndAccept (s.setPipe (s.pipe.ipv4Started bytes)) wf
  have next := parsed room
  rw [State.setPipe_pipe, ipv4] at next
  rw [step_alone (s := s.setPipe (s.pipe.ipv4Started bytes)) distinct alone,
    ownStep_parse (s := s.setPipe (s.pipe.ipv4Started bytes)) stage]
  exact next

theorem step_pAccept_of_ipv4 {s : State} {bytes : List Byte} (fresh : FreshFrame s bytes) :
    step (s.setPipe (s.pipe.ipv4Parsed bytes)) = .next (s.setPipe (s.pipe.ipv4Accepted bytes)) := by
  obtain ⟨distinct, alone, stage, -⟩ := fresh
  rw [step_alone (s := s.setPipe (s.pipe.ipv4Parsed bytes)) distinct alone,
    ownStep_parse (s := s.setPipe (s.pipe.ipv4Parsed bytes)) stage]
  exact pAcceptRecordsThePayloadOffset _

/-- The three parser steps of a frame with an Ipv4Header. -/
theorem runOwn_ipv4Accepted {s : State} {bytes : List Byte} (fresh : FreshFrame s bytes) (long : 34 ≤ bytes.length)
    (type : (ethOfFrame bytes).etype = Config.etherIpv4) (k : Nat) :
    runOwn (k + 3) s = runOwn k (s.setPipe (s.pipe.ipv4Accepted bytes)) := by
  rw [runOwn_succ (step_pStart_of_ipv4 fresh long type), runOwn_succ (step_pIpv4_of_ipv4 fresh long),
    runOwn_succ (step_pAccept_of_ipv4 fresh)]

/-! ## The stages after the parser -/

/-- An accepted frame with the IPv4 tag has the third of the four header stacks (41_parser.md R215). -/
theorem ipv4_of_acceptedStack {c : Params} {p : Pipe} (distinct : c.distinct) (accepted : acceptedStack c p)
    (type : p.eth.etype = Config.etherIpv4) : p.arp.valid = false ∧ p.sr.len = 0 ∧ p.ipv4.valid = true := by
  obtain ⟨notSr, -, notArp⟩ := distinct
  obtain ⟨-, ⟨arp, -⟩ | ⟨sr, -⟩ | ⟨-, noArp, noEntry, ipv4, -⟩ | ⟨⟨-, -, notIpv4⟩, -⟩⟩ := accepted
  · exact absurd (type.symm.trans arp) notArp
  · exact absurd (sr.symm.trans type) notSr
  · exact ⟨noArp, noEntry, ipv4⟩
  · exact absurd type notIpv4

theorem decisionRow_of_route {s : State} {r : Route} (distinct : s.params.distinct)
    (type : s.pipe.eth.etype = Config.etherIpv4) (valid : s.pipe.ipv4.valid = true)
    (route : lookupRoute s.snapshot.ft s.pipe.ipv4.dst = some r) : s.decisionRow = .ipv4FwdHit := by
  obtain ⟨notSr, -, notArp⟩ := distinct
  rw [State.decisionRow, if_neg fun h => notArp (type.symm.trans h.1), if_neg fun h => notSr (h.1.symm.trans type),
    if_pos ⟨type, valid⟩, route, if_pos Option.isSome_some]

theorem not_expired_of_alive {zeroDrop : Bool} {ttl : Byte} (alive : zeroDrop = false ∨ 1 < ttl.toNat) :
    (zeroDrop && decide (ttl.toNat ≤ 1)) = false := by
  rcases alive with keeps | alive
  · rw [keeps, Bool.false_and]
  · rw [decide_eq_false (Nat.not_le.2 alive), Bool.and_false]

theorem step_decide_of_route {s : State} {r : Route} (distinct : s.params.distinct) (alone : s.agenda = [])
    (stage : s.pipe.stage = .decide) (accepted : acceptedStack s.params s.pipe)
    (type : s.pipe.eth.etype = Config.etherIpv4) (route : lookupRoute s.snapshot.ft s.pipe.ipv4.dst = some r)
    (alive : s.params.ttlZeroDrop = false ∨ 1 < s.pipe.ipv4.ttl.toNat) :
    step s = .next (setStage (s.setPipe (s.pipe.fwdEnded r false)) .csum) := by
  obtain ⟨-, -, valid⟩ := ipv4_of_acceptedStack distinct accepted type
  obtain ⟨eth, -⟩ := accepted
  rw [decisionStageRunsDispatchOnceThenMovesToCsum s distinct stage eth (turnOf_of_nil alone), popTurn_of_nil alone,
    exec_dispatch_of_valid distinct eth, decisionRow_of_route distinct type valid route]
  exact congrArg (onNext _) (exec_ipv4FwdHit_of_route valid route (not_expired_of_alive alive).symm)

theorem step_csum_of_valid {s : State} (distinct : s.params.distinct) (alone : s.agenda = [])
    (stage : s.pipe.stage = .csum) (valid : s.pipe.ipv4.valid = true) :
    step s = .next (setStage (setIpv4 s { s.pipe.ipv4 with checksum := checksumIpv4 s.pipe.ipv4 }) .deparse) := by
  rw [step_alone distinct alone, ownStep_csum stage, if_pos valid]

/-- An Ipv4Header with its TTL one less and its checksum right again (42_decision.md R251, 45_checksum.md R332). -/
def Ipv4.decremented (i : Ipv4) : Ipv4 :=
  { i with ttl := i.ttl - 1#8, checksum := checksumIpv4 { i with ttl := i.ttl - 1#8 } }

/-- What the decision and the checksum stage leave in the headers of a frame that the route `r` forwards. -/
def Pipe.rewritten (p : Pipe) (r : Route) : Pipe := { p.routed r with ipv4 := p.ipv4.decremented }

/-- What the serializer then leaves. -/
def Pipe.forwarded (p : Pipe) (r : Route) : Pipe :=
  { p.rewritten r with outBuf := appendBytes p.outBuf (p.rewritten r).frameBytes, stage := .done }

/-- The three steps after the parser of an IPv4 frame with a route. -/
theorem runOwn_forwarded {s : State} {r : Route} (distinct : s.params.distinct) (alone : s.agenda = [])
    (stage : s.pipe.stage = .decide) (fresh : undecided s.pipe) (wf : s.pipe.inBuf.wf)
    (payload : s.pipe.payloadSet = true) (accepted : acceptedStack s.params s.pipe)
    (type : s.pipe.eth.etype = Config.etherIpv4) (route : lookupRoute s.snapshot.ft s.pipe.ipv4.dst = some r)
    (alive : s.params.ttlZeroDrop = false ∨ 1 < s.pipe.ipv4.ttl.toNat) :
    runOwn 3 s = .next (s.setPipe (s.pipe.forwarded r)) := by
  obtain ⟨-, -, noDrop, noError, -⟩ := fresh
  obtain ⟨-, noEntry, valid⟩ := ipv4_of_acceptedStack distinct accepted type
  have csum : step (setStage (s.setPipe (s.pipe.fwdEnded r false)) .csum)
      = .next (setStage (s.setPipe (s.pipe.rewritten r)) .deparse) := step_csum_of_valid distinct alone rfl valid
  have deparse := step_deparse_of_kept (s := setStage (s.setPipe (s.pipe.rewritten r)) .deparse) distinct alone rfl
    (by simp [dropped, Pipe.rewritten, Pipe.routed, noError, noDrop]) wf payload (noEntry ▸ Nat.zero_le 10)
  rw [runOwn_succ (step_decide_of_route distinct alone stage accepted type route alive), runOwn_succ csum,
    runOwn_succ deparse]
  rfl

/-! ## The bytes that leave -/

theorem ethBytes_eq (e : Eth) : ethBytes e = macBytes e.dst ++ (macBytes e.src ++ portBytes e.etype) := by
  rw [ethBytes, (spells_packEth e).bytesOf_eq (n := 14), List.append_assoc]

/-- The destination is the first six bytes of an Ethernet header (30_encoding.md R111). -/
theorem ethBytes_with_dst (e : Eth) (m : Mac) : ethBytes { e with dst := m } = macBytes m ++ (ethBytes e).drop 6 := by
  rw [ethBytes_eq, ethBytes_eq e]
  rfl

theorem ethBytes_ethOfFrame_with_dst {bytes : List Byte} (long : 14 ≤ bytes.length) (m : Mac) :
    ethBytes { ethOfFrame bytes with dst := m } = macBytes m ++ (bytes.drop 6).take 8 := by
  rw [ethBytes_with_dst, ethBytes_ethOfFrame long, List.drop_take]

theorem frameBytes_rewritten {p : Pipe} {bytes : List Byte} (r : Route) (long : 34 ≤ bytes.length)
    (frame : p.inBuf = bufferOf bytes) (noArp : p.arp.valid = false) (noEntry : p.sr.len = 0) :
    ((p.ipv4Accepted bytes).rewritten r).frameBytes
      = macBytes r.mac ++ (bytes.drop 6).take 8 ++ ipv4Bytes (ipv4OfFrame bytes).decremented ++ bytes.drop 34 := by
  have eth : ((p.ipv4Accepted bytes).rewritten r).ethPart = macBytes r.mac ++ (bytes.drop 6).take 8 :=
    ethBytes_ethOfFrame_with_dst (by omega) r.mac
  have arp : ((p.ipv4Accepted bytes).rewritten r).arpPart = [] :=
    if_neg fun valid => Bool.false_ne_true (noArp.symm.trans valid)
  have sr : ((p.ipv4Accepted bytes).rewritten r).srPart = [] :=
    congrArg (fun n => (p.sr.e.toList.take n).flatMap srBytes) noEntry
  have ipv4 : ((p.ipv4Accepted bytes).rewritten r).ipv4Part = ipv4Bytes (ipv4OfFrame bytes).decremented := if_pos rfl
  have payload : ((p.ipv4Accepted bytes).rewritten r).payloadPart = bytes.drop 34 := by
    rw [← bufferOf_contents bytes, ← frame]
    rfl
  rw [Pipe.frameBytes, eth, arp, sr, ipv4, payload, List.append_nil, List.append_nil]

theorem result_forwarded {p : Pipe} {r : Route} (fresh : undecided p) (real : r.port ≠ Config.noPort) :
    (p.forwarded r).result
      = { verdict := .forward, port := some r.port, bytes := (p.rewritten r).frameBytes, cause := .none } := by
  obtain ⟨empty, -, noDrop, noError, -⟩ := fresh
  have bytes : contents (p.forwarded r).outBuf = (p.rewritten r).frameBytes := by
    rw [Pipe.forwarded, empty, appendBytes_contents]
    rfl
  rw [← bytes, Pipe.result, if_neg (by simp [Pipe.forwarded, Pipe.rewritten, Pipe.routed, noError, noDrop])]
  exact if_neg real

/-! ## The run -/

/-- The route of a legal table names a port, and not the sentinel (10_state.md R48). -/
theorem port_ne_noPort_of_lookupRoute {ft : List FtEntry} {a : Ip} {r : Route} (table : tableOk ft)
    (route : lookupRoute ft a = some r) : r.port ≠ Config.noPort := by
  obtain ⟨-, legal, -⟩ := table
  obtain ⟨e, mem, -, port, -⟩ := exists_longest_of_lookupRoute_eq_some route
  obtain ⟨-, -, real⟩ := legal e mem
  rwa [port]

theorem undecided_takeIn {port : Port} (s : State) (bytes : List Byte) (real : port ≠ Config.noPort) :
    undecided ((s.takeIn bytes port).pipe.ipv4Accepted bytes) := ⟨rfl, rfl, rfl, rfl, rfl, real⟩

/-- An IPv4 frame with a route that has just come in is done after three parser steps and the three steps of
IPV4_FWD_HIT's path. -/
theorem runOwn_takeIn_of_route {s : State} {bytes : List Byte} {port : Port} {r : Route} (distinct : s.params.distinct)
    (alone : s.agenda = []) (real : port ≠ Config.noPort) (long : 34 ≤ bytes.length)
    (type : (ethOfFrame bytes).etype = Config.etherIpv4)
    (route : lookupRoute s.cfg.ft (ipv4OfFrame bytes).dst = some r)
    (alive : s.params.ttlZeroDrop = false ∨ 1 < (ipv4OfFrame bytes).ttl.toNat) :
    runOwn 6 (s.takeIn bytes port)
      = .next ((s.takeIn bytes port).setPipe (((s.takeIn bytes port).pipe.ipv4Accepted bytes).forwarded r)) := by
  rw [runOwn_ipv4Accepted (freshFrame_takeIn distinct alone bytes port) long type 3]
  exact runOwn_forwarded (s := (s.takeIn bytes port).setPipe ((s.takeIn bytes port).pipe.ipv4Accepted bytes))
    distinct alone rfl (undecided_takeIn s bytes real) (bufferOf_wf bytes) rfl
    ⟨rfl, .inr (.inr (.inl ⟨type, rfl, rfl, rfl, rfl⟩))⟩ type route alive

/-- Settles O60: of the frame's headers the path writes the destination, the TTL and the checksum, and DEPARSE emits them before
the bytes behind the Ipv4Header. -/
theorem ipv4FramesLeaveWithNewDestinationTtlAndChecksum :
    Obligations.Ipv4FramesLeaveWithNewDestinationTtlAndChecksum := by
  intro s bytes port r distinct alone idle real fits long tag table header route alive
  have type : (ethOfFrame bytes).etype = Config.etherIpv4 := ethOfFrame_etype (by omega) (tag ▸ ⟨rfl, rfl⟩)
  refine ⟨s.takeIn bytes port, _, _, execIngress_of_accepted idle real fits,
    runOwn_takeIn_of_route distinct alone real long type route alive, rfl, isChecksumOf_checksumIpv4 _, ?_⟩
  rw [egressResult_eq, State.setPipe_pipe,
    result_forwarded (undecided_takeIn s bytes real) (port_ne_noPort_of_lookupRoute table route),
    frameBytes_rewritten r long rfl rfl rfl]
  rfl

end Sys2Proof.Machine
end

section
/-! PROOF. The operations and the own step of the checksum stage (45_checksum.md R330 to R332). -/

namespace Sys2Proof.Machine

theorem exec_csumCompute_of_valid {s : State} (valid : s.pipe.ipv4.valid = true) :
    exec .csumCompute s = .next (setRet s (.checksum (checksumIpv4 s.pipe.ipv4))) := by
  show (withVal (readIpv4 s) fun i => .go (setRet s (.checksum (checksumIpv4 i)))).outcome = _
  rw [readIpv4_of_valid valid, withVal_ok]
  rfl

theorem exec_csumUpdate_of_valid {s : State} (valid : s.pipe.ipv4.valid = true) :
    exec .csumUpdate s = .next (setIpv4 s { s.pipe.ipv4 with checksum := checksumIpv4 s.pipe.ipv4 }) := by
  show (doCsumUpdate s).outcome = _
  rw [doCsumUpdate, readIpv4_of_valid valid, withVal_ok]
  rfl

/-- Settles O34: both operations use `checksumIpv4` of the header read, and `isChecksumOf_checksumIpv4` says what value that is. -/
theorem checksumIsComputedAndStored : Obligations.ChecksumIsComputedAndStored :=
  fun s valid => ⟨checksumIpv4 s.pipe.ipv4, isChecksumOf_checksumIpv4 s.pipe.ipv4, exec_csumCompute_of_valid valid,
    exec_csumUpdate_of_valid valid⟩

/-- Settles O35: `ownStep_csum` in its two cases. -/
theorem checksumStageUpdatesAValidHeaderAndMovesOn : Obligations.ChecksumStageUpdatesAValidHeaderAndMovesOn := by
  intro s distinct stage turn
  rw [step_own distinct turn, ownStep_csum (s := popTurn s) stage, popTurn_pipe]
  by_cases valid : s.pipe.ipv4.valid = true
  · rw [if_pos valid, if_pos valid, exec_csumUpdate_of_valid (s := popTurn s) valid]
    rfl
  · rw [if_neg valid, if_neg valid]
    rfl

end Sys2Proof.Machine
end

section
/-! PROOF. The sentinel target in the decision stage, EMIT_PAYLOAD and DEPARSE (46_deparser.md R350, R356, R358). -/

namespace Sys2Proof.Machine

/-! ## Which path gives the sentinel target -/

/-- The snapshot a frame reads is the current one or one it has kept, and the invariant keeps the tables of both legal. -/
theorem tableOk_snapshot {s : State} (inv : machineInv s) : tableOk s.snapshot.ft := by
  obtain ⟨-, current, ⟨⟨-, -, -, replaced⟩, -⟩, -⟩ := inv
  rcases List.mem_cons.1 (snapshot_mem s) with isCurrent | isReplaced
  · rwa [isCurrent]
  · exact replaced _ isReplaced

/-- The port of a source-route entry has 15 bits, and the sentinel has bit 15 set (00_scope.md R10, 30_encoding.md R116). -/
theorem widened_port_ne_noPort (port : BitVec 15) : BitVec.ofNat 16 port.toNat ≠ Config.noPort := by
  intro h
  have value := congrArg BitVec.toNat h
  rw [BitVec.toNat_ofNat, Nat.mod_eq_of_lt (by omega)] at value
  exact absurd (value ▸ port.isLt) (by decide)

/-- The row of a frame that DISPATCH gives the sentinel target. Each other path drops a frame without a target or takes the
target from a place that cannot hold the sentinel: the ingress port, a 15-bit port, or a legal table. -/
theorem decisionRow_of_sentinel {s t : State} (inv : machineInv s) (stage : s.pipe.stage = .decide)
    (run : exec .dispatch s = .next t) (target : t.pipe.egressValid = true)
    (sentinel : t.pipe.egressPort = Config.noPort) : s.decisionRow = .arpNonlocal := by
  have ⟨distinct, _, ⟨_, _, decide, _⟩, _⟩ := inv
  obtain ⟨⟨-, noTarget, -, -, ingress, realIngress⟩, -, -, -, accepted⟩ := decide stage
  have ⟨eth, _⟩ := accepted
  have untargeted : s.pipe.egressValid ≠ true := Bool.eq_false_iff.1 noTarget
  rw [exec_dispatch_of_valid distinct eth] at run
  rw [State.decisionRow] at run ⊢
  split_ifs at run ⊢ with arp request member sr ipv4 hit
  · rw [DskRow.op, arpReplySwapsTheAddressPairs s eth arp.2 ingress] at run
    cases run
    exact absurd sentinel realIngress
  · rfl
  · cases run
    exact absurd target untargeted
  · rw [DskRow.op, exec_srHop_of_front sr.2 (srLen_le_of_acceptedStack accepted)
      (Vector.getElem?_eq_getElem (by decide)) rfl] at run
    cases run
    exact absurd sentinel (widened_port_ne_noPort _)
  · obtain ⟨r, route⟩ := Option.isSome_iff_exists.1 hit
    rw [DskRow.op, exec_ipv4FwdHit_of_route ipv4.2 route rfl] at run
    cases run
    exact absurd sentinel (port_ne_noPort_of_lookupRoute (tableOk_snapshot inv) route)
  all_goals
    cases run
    exact absurd target untargeted

/-- The condition of ARP_NONLOCAL's row (42_decision.md R241, R244). -/
theorem nonlocal_of_decisionRow {s : State} (row : s.decisionRow = .arpNonlocal) :
    s.pipe.eth.etype = Config.etherArp ∧ s.pipe.arp.valid = true ∧ s.pipe.arp.oper = Config.operRequest
      ∧ ¬ lasContains s.snapshot.las s.pipe.arp.tpa = true := by
  rw [State.decisionRow] at row
  split_ifs at row with arp request member
  exact ⟨arp.1, arp.2, request, member⟩

/-- Settles O26: the decision stage's operation is DISPATCH, and its stage move writes no target. -/
theorem onlyNonlocalRequestsGetTheSentinelTarget : Obligations.OnlyNonlocalRequestsGetTheSentinelTarget := by
  intro s t inv stage turn run target sentinel
  have ⟨distinct, _, ⟨_, _, decide, _⟩, _⟩ := inv
  obtain ⟨-, -, -, -, eth, -⟩ := decide stage
  rw [decisionStageRunsDispatchOnceThenMovesToCsum s distinct stage eth turn] at run
  obtain ⟨u, dispatched, rfl⟩ := onNext_eq_next run
  have row := decisionRow_of_sentinel (machineInv_popTurn inv) stage dispatched target sentinel
  obtain ⟨type, arp, request, notLocal⟩ := nonlocal_of_decisionRow row
  exact ⟨type, arp, request, fun isLocal => notLocal ((lasContains_iff _ _).2 isLocal)⟩

/-! ## The serializer -/

/-- Settles O37: `doEmitPayload_of_wf` as an operation run by itself. -/
theorem emitPayloadCopiesTheRestOfTheFrame : Obligations.EmitPayloadCopiesTheRestOfTheFrame :=
  fun _ wf payload => congrArg Flow.outcome (doEmitPayload_of_wf wf payload)

theorem doDeparse_of_dropped {s : State} (gone : dropped s.pipe = true) : doDeparse s = .go (setStage s .done) := by
  rw [doDeparse, if_pos gone, andThen_go]

/-- Settles O36: a dropped frame and one that is not; `Pipe.frameBytes` is the order that the statement writes out. -/
theorem deparseEmitsTheValidHeadersInCanonicalOrder : Obligations.DeparseEmitsTheValidHeadersInCanonicalOrder := by
  intro s wf payload entries
  show (doDeparse s).outcome = _
  simp only [← dropped_iff]
  cases verdict : dropped s.pipe with
  | true =>
    rw [doDeparse_of_dropped verdict]
    rfl
  | false =>
    rw [doDeparse_of_kept verdict wf payload entries]
    rfl

end Sys2Proof.Machine
end

section
/-! PROOF. No step from a state with the invariant stops: a pipeline that holds a frame always has a next state, and a turn of
another kind reads no register that may hold no value (60_exceptions.md R391, 10_state.md R41). -/

namespace Sys2Proof.Machine

/-! ## The active pipeline's own turn -/

/-- The invariant has what each stage's operation reads: the parser its buffer and stack, DISPATCH the accepted headers,
DEPARSE the payload offset and at most ten entries. -/
theorem exists_next_of_ownTurn {s : State} (inv : machineInv s) (turn : ownTurn s) (notIdle : s.pipe.stage ≠ .idle)
    (notDone : s.pipe.stage ≠ .done) : ∃ t, step s = .next t := by
  have ⟨distinct, _, active, _⟩ := inv
  have ⟨⟨wf, _⟩, _, inDecide, _, inDeparse, _⟩ := active
  cases stage : s.pipe.stage with
  | idle => exact absurd stage notIdle
  | parse =>
    rw [step_own distinct turn]
    exact exists_next_of_parse (s := popTurn s) active stage
  | decide =>
    obtain ⟨-, -, -, -, eth, -⟩ := inDecide stage
    obtain ⟨t, dispatched⟩ := exists_next_dispatch (machineInv_popTurn inv) stage
    rw [decisionStageRunsDispatchOnceThenMovesToCsum s distinct stage eth turn, dispatched]
    exact ⟨_, rfl⟩
  | csum =>
    rw [step_own distinct turn, ownStep_csum (s := popTurn s) stage]
    split
    case isTrue => exact ⟨_, rfl⟩
    case isFalse => exact ⟨_, rfl⟩
  | deparse =>
    obtain ⟨-, ⟨-, entries, -, payload, -⟩, -⟩ := inDeparse stage
    rw [step_own distinct turn, ownStep_deparse (s := popTurn s) stage]
    exact ⟨_, deparseEmitsTheValidHeadersInCanonicalOrder (popTurn s) wf payload entries⟩
  | done => exact absurd stage notDone

/-- With no frame, or with a result that waits for the transport, the turn is refused and not a fault. -/
theorem step_own_ne_fault {s : State} (f : Fault) (inv : machineInv s) (turn : ownTurn s) : step s ≠ .fault f := by
  have ⟨distinct, _⟩ := inv
  by_cases idle : s.pipe.stage = .idle
  · rw [step_own distinct turn, ownStep_idle (s := popTurn s) idle]
    nofun
  by_cases done : s.pipe.stage = .done
  · rw [step_own distinct turn, ownStep_done (s := popTurn s) done]
    nofun
  obtain ⟨t, next⟩ := exists_next_of_ownTurn inv turn idle done
  rw [next]
  nofun

/-! ## The other turns -/

theorem execIngress_ne_fault (bytes : List Byte) (port : Port) (s : State) (f : Fault) :
    execIngress bytes port s ≠ .fault f := by
  rw [execIngress]
  split_ifs <;> nofun

/-- EGRESS reads `meta.egress_port` only where the verdict is not a drop, and there the port holds a value. -/
theorem execEgress_ne_fault (s : State) (f : Fault) : exec .egress s ≠ .fault f := by
  by_cases done : s.pipe.stage = .done
  · rw [execEgress_of_done done]
    nofun
  · rw [execEgress_of_not_done done]
    nofun

theorem execFtInstall_ne_fault (pfx : Ip) (plen : BitVec 8) (port : Port) (mac : Mac) (s : State) (f : Fault) :
    execFtInstall pfx plen port mac s ≠ .fault f := by
  rw [execFtInstall]
  split <;> nofun

/-- The host's four operations never stop the model, whatever state they meet. -/
theorem hostCall_ne_fault {i : Instr} (call : i.isHostCall = true) (s : State) (f : Fault) : exec i s ≠ .fault f := by
  cases i
  case ingress bytes port => exact execIngress_ne_fault bytes port s f
  case egress => exact execEgress_ne_fault s f
  case ftInstall pfx plen port mac => exact execFtInstall_ne_fault pfx plen port mac s f
  case lasConfigure => nofun
  all_goals cases call

theorem hostStep_ne_fault (w : List Byte) (s : State) (f : Fault) : hostStep w s ≠ .fault f := by
  rw [hostStep]
  split
  · split
    case isTrue call => exact hostCall_ne_fault call s f
    case isFalse => nofun
  · nofun

/-- Settles O56: an own turn by the invariant; a call, a change of the active pipeline and block reset stop in no state. -/
theorem noStepFromTheInvariantFaults : Obligations.NoStepFromTheInvariantFaults := by
  intro s f inv
  have ⟨distinct, _⟩ := inv
  cases turn : turnOf s with
  | own => exact step_own_ne_fault f inv turn
  | call w =>
    rw [step_of_distinct distinct, turn]
    exact hostStep_ne_fault w (popTurn s) f
  | switchTo k =>
    rw [step_of_distinct distinct, turn, takeTurn]
    split <;> nofun
  | blockReset =>
    rw [step_of_distinct distinct, turn]
    nofun

end Sys2Proof.Machine
end

section
/-! PROOF. A frame's way from INGRESS to DONE: every own step brings DONE nearer (70_reset_and_hazards.md R416). -/

namespace Sys2Proof.Machine

/-- A bound of the own steps that are left until DONE: after PARSE one each for DECIDE, CSUM and DEPARSE. -/
def Pipe.stepsLeft (p : Pipe) : Nat :=
  match p.stage with
  | .idle => 0
  | .parse => p.parserSteps + 4
  | .decide => 3
  | .csum => 2
  | .deparse => 1
  | .done => 0

theorem OwnMove.nearer {c : Params} {p q : Pipe} (h : OwnMove c p q) : q.stepsLeft < p.stepsLeft := by
  cases h with
  | parse stage move =>
    rcases move.leaves_or_nearer with (left | left) | ⟨stays, nearer⟩
    · simp only [Pipe.stepsLeft, stage, left]
      omega
    · simp only [Pipe.stepsLeft, stage, left]
      omega
    · simpa only [Pipe.stepsLeft, stays, stage, Nat.add_lt_add_iff_right] using nearer
  | decide stage | csum i stage | deparse bs stage =>
    simp only [Pipe.stepsLeft, stage]
    omega

/-- A frame leaves a pipeline only by EGRESS, which is no own step. -/
theorem OwnMove.stage_ne_idle {c : Params} {p q : Pipe} (h : OwnMove c p q) : q.stage ≠ .idle := by
  cases h with
  | parse stage move =>
    rcases move.stage with stays | left | ⟨left, -⟩
    · rw [stays, stage]
      nofun
    · rw [left]
      nofun
    · rw [left]
      nofun
  | decide | csum | deparse => nofun

/-- One own step of an undisturbed pipeline that holds a frame in flight. -/
theorem step_towards_done {s : State} (inv : machineInv s) (alone : s.agenda = []) (notIdle : s.pipe.stage ≠ .idle)
    (notDone : s.pipe.stage ≠ .done) :
    ∃ t, step s = .next t ∧ machineInv t ∧ t.agenda = [] ∧ t.pipe.stage ≠ .idle
      ∧ t.pipe.stepsLeft < s.pipe.stepsLeft := by
  have turn : ownTurn s := turnOf_of_nil alone
  obtain ⟨t, next⟩ := exists_next_of_ownTurn inv turn notIdle notDone
  have inv' := everyStepKeepsTheInvariant s t inv next
  obtain ⟨q, move, rfl⟩ := step_own_moves turn next
  exact ⟨_, next, inv', congrArg List.tail alone, move.stage_ne_idle, move.nearer⟩

theorem reachesDone_within_stepsLeft {s : State} (inv : machineInv s) (alone : s.agenda = [])
    (notIdle : s.pipe.stage ≠ .idle) :
    ∃ k u, k ≤ s.pipe.stepsLeft ∧ runOwn k s = .next u ∧ u.pipe.stage = .done := by
  by_cases done : s.pipe.stage = .done
  · exact ⟨0, s, Nat.zero_le _, rfl, done⟩
  obtain ⟨t, next, inv', alone', notIdle', nearer⟩ := step_towards_done inv alone notIdle done
  obtain ⟨k, u, bound, run, done'⟩ := reachesDone_within_stepsLeft inv' alone' notIdle'
  exact ⟨k + 1, u, Nat.lt_of_le_of_lt bound nearer, (runOwn_succ next k).trans run, done'⟩
termination_by s.pipe.stepsLeft

/-- An INGRESS that is carried out does what `State.takeIn` says; its other answers are refusals (20_memory.md R95). -/
theorem eq_takeIn_of_ingress {s t : State} {bytes : List Byte} {port : Port}
    (h : exec (.ingress bytes port) s = .next t) : t = s.takeIn bytes port := by
  change execIngress bytes port s = .next t at h
  rw [execIngress] at h
  split_ifs at h
  exact (Host.Outcome.next.inj h).symm

/-- Settles O57: a frame that has just come in has at most 13 steps in PARSE and one in each of the three stages after it. -/
theorem everyFrameIsDoneWithinSixteenSteps : Obligations.EveryFrameIsDoneWithinSixteenSteps := by
  intro s t bytes port inv alone taken
  have inv' : machineInv t := machineInv_hostCall inv rfl taken
  obtain rfl := eq_takeIn_of_ingress taken
  exact reachesDone_within_stepsLeft inv' alone nofun

end Sys2Proof.Machine
end

section
/-! PROOF. What a frame's result depends on (70_reset_and_hazards.md R403, R417): the operations read a register that may hold
no value only through its accessor, so what an earlier frame left in it is never seen. -/

namespace Sys2Proof.Machine

/-! ## What an operation can see -/

/-- What the operations can see of a machine and its active pipeline: the constants, the frame's snapshot, the registers that
always hold a value, and every other register through its accessor (10_state.md R41, R55; 43_source_route.md R283). -/
@[ext] structure View where
  params : Params
  snapshot : Snapshot
  stage : Stage
  pstate : PState
  cur : Nat
  eth : Except Fault Eth
  arp : Except Fault Arp
  srLen : Nat
  entry : Nat → Except Fault SrEntry
  ipv4 : Except Fault Ipv4
  ingressPort : Except Fault Port
  egressPort : Except Fault Port
  drop : Bool
  err : Cause
  payloadOff : Except Fault Nat
  inBuf : Memory
  outBuf : Memory

@[inherit_doc View]
def State.view (s : State) : View :=
  { params := s.params, snapshot := s.snapshot, stage := s.pipe.stage, pstate := s.pipe.pstate, cur := s.pipe.cur,
    eth := readEth s, arp := readArp s, srLen := s.pipe.sr.len, entry := readEntry s, ipv4 := readIpv4 s,
    ingressPort := readIngressPort s, egressPort := readEgressPort s, drop := s.pipe.drop, err := s.pipe.err,
    payloadOff := readPayloadOff s, inBuf := s.pipe.inBuf, outBuf := s.pipe.outBuf }

/-! Each update, seen: what it leaves of the view does not depend on what the view hides. -/

section
variable (s : State)

@[simp] theorem view_setPState (v : PState) : (setPState s v).view = { s.view with pstate := v } := rfl
@[simp] theorem view_setStage (g : Stage) : (setStage s g).view = { s.view with stage := g } := rfl
@[simp] theorem view_setCur (c : Nat) : (setCur s c).view = { s.view with cur := c } := rfl
@[simp] theorem view_setEth (e : Eth) :
    (setEth s e).view = { s.view with eth := if e.valid then .ok e else .error .invalidEth } := rfl
@[simp] theorem view_setArp (a : Arp) :
    (setArp s a).view = { s.view with arp := if a.valid then .ok a else .error .invalidArp } := rfl
@[simp] theorem view_setIpv4 (i : Ipv4) :
    (setIpv4 s i).view = { s.view with ipv4 := if i.valid then .ok i else .error .invalidIpv4 } := rfl
@[simp] theorem view_setEgress (q : Port) : (setEgress s q).view = { s.view with egressPort := .ok q } := rfl
@[simp] theorem view_emit (bs : List Byte) :
    (emit s bs).view = { s.view with outBuf := appendBytes s.view.outBuf bs } := rfl
@[simp] theorem view_enterParseError (c : Cause) :
    (enterParseError s c).view = { s.view with pstate := .reject, err := c, drop := true, stage := .done } := rfl
@[simp] theorem view_enterDrop (c : Cause) : (enterDrop s c).view = { s.view with err := c, drop := true } := rfl

theorem view_accepted :
    (s.setPipe { s.pipe with payloadOff := s.pipe.cur, payloadSet := true, stage := .decide }).view
      = { s.view with payloadOff := .ok s.view.cur, stage := .decide } := rfl

theorem view_setSr {r : SrStack} {entry : Nat → Except Fault SrEntry} (seen : ∀ i, readEntry (setSr s r) i = entry i) :
    (setSr s r).view = { s.view with srLen := r.len, entry := entry } := by
  obtain rfl : readEntry (setSr s r) = entry := funext seen
  rfl

/-- A rewrite of some fields of `hdr.eth`: an invalid header stays one, whatever its fields held. -/
theorem view_rewriteEth {f : Eth → Eth} (keeps : ∀ e, (f e).valid = e.valid) :
    (setEth s (f s.pipe.eth)).view = { s.view with eth := s.view.eth.map f } := by
  have seen : s.view.eth.map f = if (f s.pipe.eth).valid then .ok (f s.pipe.eth) else .error .invalidEth := by
    show (readEth s).map f = _
    rw [readEth, keeps]
    cases s.pipe.eth.valid <;> rfl
  rw [view_setEth, seen]

end

theorem view_push {s : State} (e : SrEntry) (free : s.pipe.sr.len < Config.srCapacity) :
    (setSr s (s.pipe.sr.push e)).view
      = { s.view with
          srLen := s.view.srLen + 1
          entry := fun i => if i = s.view.srLen then .ok e else s.view.entry i } := by
  refine view_setSr s fun i => ?_
  show _ = if i = s.pipe.sr.len then .ok e else readEntry s i
  rcases Nat.lt_trichotomy i s.pipe.sr.len with below | rfl | above
  · have below' : i < (s.pipe.sr.push e).len := Nat.lt_succ_of_lt below
    rw [if_neg (Nat.ne_of_lt below), readEntry, readEntry, setSr_pipe, SrStack.push_getElem?_below _ e below,
      if_pos below, if_pos below']
  · rw [if_pos rfl]
    exact readEntry_push (s := setSr s (s.pipe.sr.push e)) rfl free
  · rw [if_neg (Nat.ne_of_gt above), readEntry_of_le (Nat.le_of_lt above)]
    exact readEntry_of_le above

theorem view_popped {s : State} (le : s.pipe.sr.len ≤ 10) :
    (setSr s s.pipe.sr.popped).view
      = { s.view with srLen := s.view.srLen - 1, entry := fun i => s.view.entry (i + 1) } := by
  refine view_setSr s fun i => ?_
  show _ = readEntry s (i + 1)
  by_cases within : i < s.pipe.sr.len - 1
  · rw [readEntry, readEntry, setSr_pipe, SrStack.popped_entry_of_lt le within, SrStack.popped_len, if_pos within,
      if_pos (by omega)]
  · rw [readEntry_of_le (by rw [setSr_pipe, SrStack.popped_len]; omega), readEntry_of_le (by omega)]

/-! ## Flows that look alike -/

/-- Two ends of a flow that look alike: both go on, or both have raised, in states with one view, or both stop alike. -/
inductive Flow.Alike : Flow → Flow → Prop
  | go {s t : State} (h : s.view = t.view) : Alike (.go s) (.go t)
  | raised {s t : State} (h : s.view = t.view) : Alike (.raised s) (.raised t)
  | stop (f : Fault) : Alike (.stop f) (.stop f)

theorem Flow.Alike.andThen {x y : Flow} {k l : State → Flow} (h : x.Alike y)
    (hk : ∀ {s t}, s.view = t.view → (k s).Alike (l t)) : (x.andThen k).Alike (y.andThen l) := by
  cases h with
  | go h => exact hk h
  | raised h => exact .raised h
  | stop f => exact .stop f

theorem Flow.Alike.withVal {α : Type} {x y : Except Fault α} {k l : α → Flow} (h : x = y)
    (hk : ∀ a, (k a).Alike (l a)) : (withVal x k).Alike (withVal y l) := by
  subst h
  cases x with
  | ok a => exact hk a
  | error f => exact .stop f

theorem Flow.Alike.ite {b c : Prop} [Decidable b] [Decidable c] {x y x' y' : Flow} (h : b ↔ c) (hx : x.Alike x')
    (hy : y.Alike y') : (if b then x else y).Alike (if c then x' else y') := by
  by_cases yes : b
  · rwa [if_pos yes, if_pos (h.1 yes)]
  · rwa [if_neg yes, if_neg (mt h.2 yes)]

/-- The next state of one is matched by a next state of the other. -/
theorem Flow.Alike.next {x y : Flow} {u : State} (h : x.Alike y) (hu : x.outcome = .next u) :
    ∃ v, y.outcome = .next v ∧ u.view = v.view := by
  cases h with
  | go h | raised h =>
    cases hu
    exact ⟨_, rfl, h⟩
  | stop f => cases hu

/-! ## What two states with one view agree on -/

/-- A register that reads alike in two states is readable in both or in neither. -/
theorem flag_eq_of_read_eq {α : Type} {v w : Bool} {a b : α} {f : Fault}
    (read : (if v = true then Except.ok a else .error f) = if w = true then Except.ok b else .error f) : v = w := by
  cases v with
  | true => cases w with
    | true => rfl
    | false => cases read
  | false => cases w with
    | true => cases read
    | false => rfl

section
variable {s t : State} (h : s.view = t.view)
include h

theorem readEth_congr : readEth s = readEth t := congrArg View.eth h
theorem readArp_congr : readArp s = readArp t := congrArg View.arp h
theorem readIpv4_congr : readIpv4 s = readIpv4 t := congrArg View.ipv4 h
theorem readEntry_congr (i : Nat) : readEntry s i = readEntry t i := congrFun (congrArg View.entry h) i
theorem params_congr : s.params = t.params := congrArg View.params h
theorem srLen_congr : s.pipe.sr.len = t.pipe.sr.len := congrArg View.srLen h
theorem inBuf_congr : s.pipe.inBuf = t.pipe.inBuf := congrArg View.inBuf h

theorem ethValid_congr : s.pipe.eth.valid = t.pipe.eth.valid := flag_eq_of_read_eq (readEth_congr h)
theorem arpValid_congr : s.pipe.arp.valid = t.pipe.arp.valid := flag_eq_of_read_eq (readArp_congr h)
theorem ipv4Valid_congr : s.pipe.ipv4.valid = t.pipe.ipv4.valid := flag_eq_of_read_eq (readIpv4_congr h)
theorem egressValid_congr : s.pipe.egressValid = t.pipe.egressValid :=
  flag_eq_of_read_eq (congrArg View.egressPort h)

theorem arp_congr (valid : t.pipe.arp.valid = true) : s.pipe.arp = t.pipe.arp := by
  have read := readArp_congr h
  rw [readArp_of_valid valid, readArp_of_valid ((arpValid_congr h).trans valid)] at read
  exact Except.ok.inj read

theorem ipv4_congr (valid : t.pipe.ipv4.valid = true) : s.pipe.ipv4 = t.pipe.ipv4 := by
  have read := readIpv4_congr h
  rw [readIpv4_of_valid valid, readIpv4_of_valid ((ipv4Valid_congr h).trans valid)] at read
  exact Except.ok.inj read

theorem srFull_congr : srFull s.pipe = srFull t.pipe := by rw [srFull, srFull, srLen_congr h]

theorem dropped_congr : dropped s.pipe = dropped t.pipe := by
  have err : s.pipe.err = t.pipe.err := congrArg View.err h
  have drop : s.pipe.drop = t.pipe.drop := congrArg View.drop h
  rw [dropped, dropped, err, drop, egressValid_congr h]

/-- The decision key looks at the fields of a header only where it is valid (30_encoding.md R121). -/
theorem formDsk_congr : formDsk s = formDsk t := by
  have snapshot : s.snapshot = t.snapshot := congrArg View.snapshot h
  rw [formDsk, formDsk, readEth_congr h]
  cases readEth t with
  | error f => rfl
  | ok eth =>
    dsimp only
    rw [snapshot, srLen_congr h, arpValid_congr h, ipv4Valid_congr h]
    cases arp : t.pipe.arp.valid <;> cases ipv4 : t.pipe.ipv4.valid
    · simp
    · simp [ipv4_congr h ipv4]
    · simp [arp_congr h arp]
    · simp [arp_congr h arp, ipv4_congr h ipv4]

/-- The verdict reads the egress port only of a frame that has one (46_deparser.md R358). -/
theorem egressResult_congr : egressResult s = egressResult t := by
  have err : s.pipe.err = t.pipe.err := congrArg View.err h
  have outBuf : s.pipe.outBuf = t.pipe.outBuf := congrArg View.outBuf h
  have port : readEgressPort s = readEgressPort t := congrArg View.egressPort h
  rw [egressResult, egressResult, dropped_congr h, err, outBuf, port]

/-! ## The parser -/

theorem decodeHeader_alike {n : Nat} {k : State → BitVec (8 * n) → Flow}
    (hk : ∀ {s t} w, s.view = t.view → (k s w).Alike (k t w)) : (decodeHeader s n k).Alike (decodeHeader t n k) := by
  have cur : s.pipe.cur = t.pipe.cur := congrArg View.cur h
  rw [decodeHeader, decodeHeader, cur, inBuf_congr h]
  exact .ite Iff.rfl (.raised (by simp [h])) (.withVal rfl fun w => hk w (by simp [h]))

theorem doDecEth_alike : (doDecEth s).Alike (doDecEth t) := decodeHeader_alike h fun _ h => .go (by simp [h])
theorem doDecArp_alike : (doDecArp s).Alike (doDecArp t) := decodeHeader_alike h fun _ h => .go (by simp [h])
theorem doDecIpv4_alike : (doDecIpv4 s).Alike (doDecIpv4 t) := decodeHeader_alike h fun _ h => .go (by simp [h])

theorem doDecSr_alike : (doDecSr s).Alike (doDecSr t) := by
  refine decodeHeader_alike h fun {s t} w h => ?_
  by_cases free : t.pipe.sr.len < Config.srCapacity
  · have free' : s.pipe.sr.len < Config.srCapacity := srLen_congr h ▸ free
    rw [if_pos free, if_pos free']
    exact .go ((view_push _ free').trans (h ▸ (view_push _ free).symm))
  · rw [if_neg free, if_neg (srLen_congr h ▸ free)]
    exact .stop _

theorem selectNext_alike (key : BitVec 20) : (selectNext key s).Alike (selectNext key t) := by
  rw [selectNext, selectNext, params_congr h]
  cases firstRow (pskSelectRows t.params) key with
  | none => exact .stop _
  | some r =>
    cases r with
    | srOverflow => exact .raised (by simp [h])
    | _ => exact .go (by simp [h])

theorem doPStart_alike : (doPStart s).Alike (doPStart t) := by
  rw [doPStart, doPStart, srFull_congr h]
  exact (doDecEth_alike h).andThen fun h => .withVal (readEth_congr h) fun _ => selectNext_alike h _

theorem doPArp_alike : (doPArp s).Alike (doPArp t) := (doDecArp_alike h).andThen fun h => .go (by simp [h])
theorem doPIpv4_alike : (doPIpv4 s).Alike (doPIpv4 t) := (doDecIpv4_alike h).andThen fun h => .go (by simp [h])
theorem doPSrOverflow_alike : (doPSrOverflow s).Alike (doPSrOverflow t) := .raised (by simp [h])

theorem doPSr_alike : (doPSr s).Alike (doPSr t) := by
  rw [doPSr, doPSr, srFull_congr h]
  refine .ite Iff.rfl (doPSrOverflow_alike h) ((doDecSr_alike h).andThen fun h => ?_)
  rw [srLen_congr h]
  exact .withVal (readEntry_congr h _) fun _ => selectNext_alike h _

theorem doPAccept_alike : (doPAccept s).Alike (doPAccept t) := .go (by rw [view_accepted, view_accepted, h])

/-! ## The decision stage -/

theorem raiseDrop_alike (c : Cause) : (raiseDrop s c).Alike (raiseDrop t c) := .raised (by simp [h])

theorem doTtlDec_alike : (doTtlDec s).Alike (doTtlDec t) := by
  rw [doTtlDec, doTtlDec, params_congr h]
  exact .withVal (readIpv4_congr h) fun i => .ite Iff.rfl (raiseDrop_alike h _) (.go (by simp [h]))

theorem doSrPop_alike : (doSrPop s).Alike (doSrPop t) := by
  by_cases within : 1 ≤ t.pipe.sr.len ∧ t.pipe.sr.len ≤ Config.srCapacity
  · have within' : 1 ≤ s.pipe.sr.len ∧ s.pipe.sr.len ≤ Config.srCapacity := srLen_congr h ▸ within
    rw [doSrPop, doSrPop, if_pos within, if_pos within']
    exact .go ((view_popped within'.2).trans (h ▸ (view_popped within.2).symm))
  · rw [doSrPop, doSrPop, if_neg within, if_neg (srLen_congr h ▸ within)]
    exact .stop _

theorem view_rewriteEth_congr {f : Eth → Eth} (keeps : ∀ e, (f e).valid = e.valid) :
    (setEth s (f s.pipe.eth)).view = (setEth t (f t.pipe.eth)).view := by
  rw [view_rewriteEth s keeps, view_rewriteEth t keeps, h]

theorem view_retagIfLast_congr (e : SrEntry) : (retagIfLast e s).view = (retagIfLast e t).view := by
  rw [retagIfLast_eq, retagIfLast_eq]
  exact view_rewriteEth_congr h (f := fun x => { x with etype := if e.bos then Config.etherIpv4 else x.etype })
    fun _ => rfl

theorem doSrHop_alike : (doSrHop s).Alike (doSrHop t) := by
  refine .withVal (readEntry_congr h 0) fun e => (doSrPop_alike h).andThen fun {u v} h => ?_
  have target : (setEgress u (egressPortOf e)).view = (setEgress v (egressPortOf e)).view := by simp [h]
  have hopped := view_retagIfLast_congr target e
  exact .ite (by rw [ipv4Valid_congr hopped]) (doTtlDec_alike hopped) (.go hopped)

theorem doIpv4FwdHit_alike : (doIpv4FwdHit s).Alike (doIpv4FwdHit t) := by
  refine .withVal (readIpv4_congr h) fun i => ?_
  have snapshot : s.snapshot = t.snapshot := congrArg View.snapshot h
  rw [lpmLookup, lpmLookup, snapshot]
  cases lookupRoute t.snapshot.ft i.dst with
  | none => exact .stop _
  | some r =>
    have target : (setEgress s r.port).view = (setEgress t r.port).view := by simp [h]
    exact doTtlDec_alike (view_rewriteEth_congr target (f := fun x => { x with dst := r.mac }) fun _ => rfl)

theorem doArpReply_alike : (doArpReply s).Alike (doArpReply t) :=
  .withVal (readEth_congr h) fun _ => .withVal (readArp_congr h) fun _ =>
    .withVal (congrArg View.ingressPort h) fun _ => .go (by simp [h])

theorem runDskRow_alike (r : DskRow) : (runDskRow r s).Alike (runDskRow r t) := by
  cases r with
  | arpReply => exact doArpReply_alike h
  | arpNonlocal => exact .go (by simp [h])
  | arpNoaction => exact raiseDrop_alike h _
  | srHop => exact doSrHop_alike h
  | ipv4FwdHit => exact doIpv4FwdHit_alike h
  | ipv4FwdMiss => exact raiseDrop_alike h _
  | fallbackDrop => exact raiseDrop_alike h _

/-! ## The serializer -/

theorem doEncEth_alike : (doEncEth s).Alike (doEncEth t) := .withVal (readEth_congr h) fun _ => .go (by simp [h])
theorem doEncArp_alike : (doEncArp s).Alike (doEncArp t) := .withVal (readArp_congr h) fun _ => .go (by simp [h])
theorem doEncIpv4_alike : (doEncIpv4 s).Alike (doEncIpv4 t) := .withVal (readIpv4_congr h) fun _ => .go (by simp [h])
theorem doEncSr_alike (i : Nat) : (doEncSr i s).Alike (doEncSr i t) :=
  .withVal (readEntry_congr h i) fun _ => .go (by simp [h])

theorem doEmitEntries_alike (i k : Nat) : (doEmitEntries s i k).Alike (doEmitEntries t i k) := by
  induction k generalizing s t i with
  | zero => exact .go h
  | succ k ih => exact (doEncSr_alike h i).andThen fun h => ih h (i + 1)

theorem doEmitPayload_alike : (doEmitPayload s).Alike (doEmitPayload t) := by
  refine .withVal (congrArg View.payloadOff h) fun off => ?_
  rw [inBuf_congr h]
  split
  · exact .go (by simp [h])
  · exact .stop _

theorem doEmitAll_alike : (doEmitAll s).Alike (doEmitAll t) := by
  refine (((Flow.Alike.ite (by rw [ethValid_congr h]) (doEncEth_alike h) (.go h)).andThen fun h =>
    .ite (by rw [arpValid_congr h]) (doEncArp_alike h) (.go h)).andThen fun h => ?_).andThen fun h =>
      (Flow.Alike.ite (by rw [ipv4Valid_congr h]) (doEncIpv4_alike h) (.go h)).andThen doEmitPayload_alike
  rw [srLen_congr h]
  exact doEmitEntries_alike h 0 _

theorem doDeparse_alike : (doDeparse s).Alike (doDeparse t) :=
  (Flow.Alike.ite (by rw [dropped_congr h]) (.go h) (doEmitAll_alike h)).andThen fun h => .go (by simp [h])

/-! ## The step -/

theorem ownStep_parse_alike {u : State} (stage : s.pipe.stage = .parse) (stage' : t.pipe.stage = .parse)
    (hu : ownStep s = .next u) : ∃ v, ownStep t = .next v ∧ u.view = v.view := by
  have same : s.pipe.pstate = t.pipe.pstate := congrArg View.pstate h
  rw [ownStep_parse stage, same, srLen_congr h] at hu
  rw [ownStep_parse stage']
  cases state : t.pipe.pstate <;> rw [state] at hu
  case start => exact (doPStart_alike h).next hu
  case parseArp => exact (doPArp_alike h).next hu
  case parseSr =>
    dsimp only at hu ⊢
    split at hu
    case isTrue full =>
      rw [if_pos full]
      exact (doPSrOverflow_alike h).next hu
    case isFalse free =>
      rw [if_neg free]
      exact (doPSr_alike h).next hu
  case parseIpv4 => exact (doPIpv4_alike h).next hu
  case accept => exact (doPAccept_alike h).next hu
  case reject => cases hu

theorem ownStep_decide_alike {u : State} (stage : s.pipe.stage = .decide) (stage' : t.pipe.stage = .decide)
    (hu : ownStep s = .next u) : ∃ v, ownStep t = .next v ∧ u.view = v.view := by
  rw [ownStep_decide stage, formDsk_congr h, params_congr h] at hu
  rw [ownStep_decide stage']
  cases key : formDsk t with
  | error f =>
    rw [key] at hu
    cases hu
  | ok k =>
    rw [key] at hu
    dsimp only at hu ⊢
    cases row : firstRow (dskRows t.params) k with
    | none =>
      rw [row] at hu
      cases hu
    | some r =>
      rw [row] at hu
      obtain ⟨w, run, rfl⟩ := onNext_eq_next hu
      obtain ⟨v, run', alike⟩ := (runDskRow_alike h r).next run
      dsimp only
      rw [run']
      exact ⟨_, rfl, by simp [alike]⟩

theorem ownStep_csum_alike {u : State} (stage : s.pipe.stage = .csum) (stage' : t.pipe.stage = .csum)
    (hu : ownStep s = .next u) : ∃ v, ownStep t = .next v ∧ u.view = v.view := by
  rw [ownStep_csum stage, ipv4Valid_congr h] at hu
  rw [ownStep_csum stage']
  split at hu
  case isTrue valid =>
    cases hu
    rw [if_pos valid]
    exact ⟨_, rfl, by simp [ipv4_congr h valid, h]⟩
  case isFalse invalid =>
    cases hu
    rw [if_neg invalid]
    exact ⟨_, rfl, by simp [h]⟩

theorem ownStep_alike {u : State} (hu : ownStep s = .next u) : ∃ v, ownStep t = .next v ∧ u.view = v.view := by
  have same : t.pipe.stage = s.pipe.stage := (congrArg View.stage h).symm
  cases stage : s.pipe.stage with
  | idle =>
    rw [ownStep_idle stage] at hu
    cases hu
  | parse => exact ownStep_parse_alike h stage (same.trans stage) hu
  | decide => exact ownStep_decide_alike h stage (same.trans stage) hu
  | csum => exact ownStep_csum_alike h stage (same.trans stage) hu
  | deparse =>
    rw [ownStep_deparse stage] at hu
    rw [ownStep_deparse (same.trans stage)]
    exact (doDeparse_alike h).next hu
  | done =>
    rw [ownStep_done stage] at hu
    cases hu

end

/-! ## The run -/

theorem ownStep_keeps_params_agenda {s t : State} (h : ownStep s = .next t) :
    t.params = s.params ∧ t.agenda = s.agenda := by
  obtain ⟨q, -, rfl⟩ := ownStep_moves h
  exact ⟨rfl, rfl⟩

theorem exists_step_of_run {M : Host.Core} {k : Nat} {s u : M.State} (run : M.run (k + 1) s = .next u) :
    ∃ t, M.step s = .next t ∧ M.run k t = .next u := by
  rw [Host.Core.run] at run
  split at run
  case h_1 t next => exact ⟨t, next, run⟩
  all_goals cases run

/-- Two undisturbed machines that look alike go on looking alike, step by step. -/
theorem runOwn_alike (k : Nat) {s t u : State} (distinct : s.params.distinct) (alone : s.agenda = [])
    (alone' : t.agenda = []) (h : s.view = t.view) (run : runOwn k s = .next u) :
    ∃ v, runOwn k t = .next v ∧ u.view = v.view := by
  induction k generalizing s t with
  | zero =>
    cases run
    exact ⟨t, rfl, h⟩
  | succ k ih =>
    have distinct' : t.params.distinct := params_congr h ▸ distinct
    obtain ⟨w, (next : step s = .next w), rest⟩ := exists_step_of_run run
    rw [step_alone distinct alone] at next
    obtain ⟨x, next', alike⟩ := ownStep_alike h next
    obtain ⟨params, agenda⟩ := ownStep_keeps_params_agenda next
    obtain ⟨-, agenda'⟩ := ownStep_keeps_params_agenda next'
    obtain ⟨v, rest', alike'⟩ := ih (params ▸ distinct) (agenda.trans alone) (agenda'.trans alone') alike rest
    exact ⟨v, (runOwn_succ ((step_alone distinct' alone').trans next') k).trans rest', alike'⟩

/-- INGRESS hides all that a pipeline held: every header is invalid, the stack is empty, and the ports and offsets hold no
value or the frame's (70_reset_and_hazards.md R402). -/
theorem view_takeIn {s t : State} (params : s.params = t.params) (cfg : s.cfg = t.cfg) (bytes : List Byte) (port : Port) :
    (s.takeIn bytes port).view = (t.takeIn bytes port).view := by
  have noEntry (r : State) : readEntry (r.takeIn bytes port) = fun _ => .error .srIndex :=
    funext fun _ => readEntry_of_le (Nat.zero_le _)
  exact View.ext params cfg rfl rfl rfl rfl rfl rfl ((noEntry s).trans (noEntry t).symm) rfl rfl rfl rfl rfl rfl rfl rfl

/-- Settles O58: the frame looks alike in both machines when it has come in, so it does after each step, and the view shows the
stage and the egress result. -/
theorem resultsDoNotDependOnEarlierFrames : Obligations.ResultsDoNotDependOnEarlierFrames := by
  intro s t s' t' u bytes port k distinct params cfg alone alone' taken taken' run
  obtain rfl := eq_takeIn_of_ingress taken
  obtain rfl := eq_takeIn_of_ingress taken'
  obtain ⟨v, run', alike⟩ := runOwn_alike k (s := s.takeIn bytes port) (t := t.takeIn bytes port) distinct alone
    alone' (view_takeIn params cfg bytes port) run
  exact ⟨v, run', (congrArg View.stage alike).symm, fun _ => (egressResult_congr alike).symm⟩

end Sys2Proof.Machine
end
